-- ==== Sys2Proof/Word.lean ====
section
/-! DEFINITION. The bit widths the spec's formats use. -/

namespace Sys2Proof

/-- A sample, a frame-buffer byte, a sync pattern or a mask (30_encoding.md rules R71, R73). -/
abbrev Byte := BitVec 8

/-- A palette word: two lanes of one sample each (30_encoding.md rule R72). -/
abbrev PalWord := BitVec 16

/-- A scanline word, a source pointer or an event word (30_encoding.md rules R74, R79, R81). -/
abbrev Word := BitVec 32

end Sys2Proof
end

