-- ==== Sys2Proof/Config.lean ====
section
/-! DEFINITION. What is fixed for a run: the VideoMode fields and the spec parameters (00_scope.md rules R3, R5, R6), the
fixed constants, the reference configuration, and the free values. -/

namespace Sys2Proof

/-- One of the 260 line buffers (30_encoding.md rule R80): a template TPL(k) or a prepared line PREP(r). -/
inductive BufId where
  | tpl (k : BitVec 2)
  | prep (r : BitVec 8)
  deriving DecidableEq, Repr

/-- TPL(0), the blank template (R80). -/
abbrev BufId.blank : BufId := .tpl 0

/-- TPL(1), the vertical-sync template (R80). -/
abbrev BufId.vsync : BufId := .tpl 1

/-- TPL(2), the first image template (R80). -/
abbrev BufId.imageA : BufId := .tpl 2

/-- TPL(3), the second image template (R80). -/
abbrev BufId.imageB : BufId := .tpl 3

/-- The interrupt-time strategy, chosen once before the run (00_scope.md rule R8). Only `active` is admitted. -/
inductive Strategy where
  | active
  | legacy
  deriving DecidableEq, Repr

/-- The configuration: plain data, read-only for the whole run (10_state.md rule R24). -/
structure Config where
  /-- Which interrupt-time strategy runs (R8). -/
  strategy : Strategy
  /-- VideoMode, R3. -/
  sysClk : Nat
  pixelClk : Nat
  hVisible : Nat
  vVisible : Nat
  wholeLine : Nat
  wholeFrame : Nat
  hFrontPorch : Nat
  hSyncPulse : Nat
  hBackPorch : Nat
  vFrontPorch : Nat
  vSyncPulse : Nat
  vBackPorch : Nat
  syncPolarity : Byte
  divider : Nat
  /-- The four sync patterns (R6). -/
  noSync : Byte
  hSync : Byte
  vSync : Byte
  vhSync : Byte
  /-- Where a sample's sync and colour fields lie (R6, 30_encoding.md rule R73). -/
  syncMask : Byte
  colorMask : Byte
  /-- RGBI_EXPAND as its table of 16 results (R6). -/
  rgbiExpand : Vector Byte 16
  /-- First sample of the horizontal sync pulse (R6). -/
  hsStart : Nat
  /-- First sample of the active-video portion (R6). -/
  activeStart : Nat
  /-- ADDR on the four templates and on the 256 prepared lines (R6, 20_memory.md rule R47). -/
  tplAddr : Vector Word 4
  prepAddr : Vector Word 256
  /-- Number of frame-buffer slots: 3, or 1 in single-buffer mode (00_scope.md section 4, 44_host_rotation.md rule R191). -/
  fbSlots : Nat
  /-- Value of `buffering_mode` at reset (R6). -/
  bufferingInit : Bool
  /-- The argument BOOT gives ARM (R6). -/
  initBuf : BufId
  deriving DecidableEq, Repr

/-- PAL_ENTRIES, the number of palette entries (00_scope.md section 4). -/
abbrev palEntries : Nat := 256

/-- PREP_LINES, the number of prepared lines (00_scope.md section 4). -/
abbrev prepLines : Nat := 256

/-- FB_W, the width of a frame buffer in pixels (00_scope.md section 4). -/
abbrev fbW : Nat := 256

/-- FB_H, the height of a frame buffer in pixels (00_scope.md section 4). -/
abbrev fbH : Nat := 256

/-- FB_STRIDE, the bytes of one frame-buffer row (00_scope.md section 4). -/
abbrev fbStride : Nat := 128

/-- FB_BYTES, the bytes of one frame-buffer slot (00_scope.md section 4). -/
abbrev fbBytes : Nat := 32768

/-- ACTIVE_SAMPLES, the samples of the active-video portion (R6). -/
abbrev activeSamples : Nat := 256

/-- LINE_SAMPLES = whole_line / divider (R5). -/
def Config.lineSamples (c : Config) : Nat := c.wholeLine / c.divider

/-- LINE_WORDS = LINE_SAMPLES / 4 (R5). -/
def Config.lineWords (c : Config) : Nat := c.lineSamples / 4

/-- LINE_BYTES = 4 * LINE_WORDS (R5). -/
def Config.lineBytes (c : Config) : Nat := 4 * c.lineWords

/-- HS_WIDTH = h_sync_pulse / divider (R5). -/
def Config.hsWidth (c : Config) : Nat := c.hSyncPulse / c.divider

/-- First scanline after the visible region: A of 40_scanout.md rule R100. -/
def Config.endVisible (c : Config) : Nat := c.vVisible

/-- First scanline after the front porch: B of rule R100. -/
def Config.endFrontPorch (c : Config) : Nat := c.vVisible + c.vFrontPorch

/-- First scanline after the vertical sync: C of rule R100. -/
def Config.endVSync (c : Config) : Nat := c.vVisible + c.vFrontPorch + c.vSyncPulse

/-- The configuration of the spec's test vectors: REF and the reference values of 00_scope.md section 4, 41_palette.md rule
R124 and 20_memory.md rule R48. DESIGN CHOICE (log 1), unsafe for a claim about `State.reset`: the spec confines these values to
test vectors, so a claim quantifies over the configuration and uses this one only where it says so. -/
def Config.ref : Config where
  strategy := .active
  sysClk := 0
  pixelClk := 0
  hVisible := 256
  vVisible := 4
  wholeLine := 336
  wholeFrame := 10
  hFrontPorch := 8
  hSyncPulse := 32
  hBackPorch := 40
  vFrontPorch := 1
  vSyncPulse := 2
  vBackPorch := 3
  syncPolarity := 0xC0
  divider := 1
  noSync := 0x00
  hSync := 0x40
  vSync := 0x80
  vhSync := 0xC0
  syncMask := 0xC0
  colorMask := 0x3F
  rgbiExpand := #v[0x00, 0x02, 0x08, 0x0A, 0x20, 0x22, 0x28, 0x2A, 0x00, 0x03, 0x0C, 0x0F, 0x30, 0x33, 0x3C, 0x3F]
  hsStart := 264
  activeStart := 0
  tplAddr := #v[0x20000000, 0x20000150, 0x200002A0, 0x200003F0]
  prepAddr := ⟨⟨(List.range 256).map fun r => BitVec.ofNat 32 (0x20001000 + r * 336)⟩, by simp⟩
  fbSlots := 3
  bufferingInit := true
  initBuf := .imageA

/-- The free value the operation RESET leaves in `dma_base` (93_implementation_defined.md U11: any value), as a function of the
number of free values drawn before. It has no body: no claim can rest on what it is (log 5). -/
opaque Config.freeBase : Nat → Word

end Sys2Proof
end

