-- ==== Sys2Proof/Syntax.lean ====
section
/-! DEFINITION. The operations of the block: one constructor per row of spec/opcode_table.json, the 16 event words
(30_encoding.md rule R82) and the 7 pure functions. -/

namespace Sys2Proof

/-- The four regions of a frame, in the order they occur (30_encoding.md rule R76). -/
inductive Region where
  | visible
  | frontPorch
  | vsync
  | backPorch
  deriving DecidableEq, Repr

/-- One operation with its operands. -/
inductive Instr where
  /-- RESET, 70_reset_and_hazards.md rule R230. -/
  | reset
  /-- ARM b, 42_dma_mux.md rule R137. -/
  | arm (b : BufId)
  /-- STREAM, 42_dma_mux.md rule R138. -/
  | stream
  /-- LINE_END, 42_dma_mux.md rule R139. -/
  | lineEnd
  /-- STEP, 40_scanout.md rule R104. -/
  | step
  /-- PAL_READ idx, 41_palette.md rule R125. -/
  | palRead (idx : Byte)
  /-- PAL_BUILD, 41_palette.md rule R123. -/
  | palBuild
  /-- TPL_BUILD, 43_line_buffers.md rule R163. -/
  | tplBuild
  /-- REBUILD_ROW s, r, 43_line_buffers.md rule R165. -/
  | rebuildRow (slot : BitVec 2) (row : Byte)
  /-- REBUILD s, 43_line_buffers.md rule R167. -/
  | rebuild (slot : BitVec 2)
  /-- FB_WRITE s, o, v, 44_host_rotation.md rule R182. -/
  | fbWrite (slot : BitVec 2) (off : BitVec 15) (val : Byte)
  /-- ACQ_WRITE, 44_host_rotation.md rule R183. -/
  | acqWrite
  /-- ACQ_DISPLAY, 44_host_rotation.md rule R184. -/
  | acqDisplay
  /-- CLEAR_BUFFERS, 44_host_rotation.md rule R185. -/
  | clearBuffers
  /-- SET_BUFFERING e, 44_host_rotation.md rule R186. -/
  | setBuffering (en : Bool)
  /-- RELOAD_SOURCE b, 42_dma_mux.md rule R136. -/
  | reloadSource (b : BufId)
  /-- CLASSIFY(y), 40_scanout.md rule R100 (no event word). -/
  | classify (y : Nat)
  /-- SELECT(y), 40_scanout.md rule R102 (no event word). -/
  | select (y : Nat)
  /-- NEXT_Y(y), 40_scanout.md rule R103 (no event word). -/
  | nextY (y : Nat)
  /-- LANE(n), 41_palette.md rule R122 (no event word). -/
  | lane (n : BitVec 4)
  /-- ADDR(b), 42_dma_mux.md rule R135 (no event word). -/
  | addr (b : BufId)
  /-- PLAIN_LINE(k), 43_line_buffers.md rule R161 (no event word). -/
  | plainLine (k : Nat)
  /-- VSYNC_LINE(k), 43_line_buffers.md rule R162 (no event word). -/
  | vsyncLine (k : Nat)
  deriving DecidableEq, Repr

/-- Why an event word is reserved, that is spells no operation (30_encoding.md rule R83). -/
inductive Reserved where
  /-- A bit outside the operation's fields is 1: R83(a). -/
  | bits
  /-- Slot 3, or a slot the configuration does not have: R83(b). -/
  | slot
  /-- A selector with bit 8 set and a bit of 7:2 set: R83(c). -/
  | selector
  deriving DecidableEq, Repr

/-- Who performs an operation (00_scope.md rule R7, 30_encoding.md rule R82). -/
inductive Agent where
  | data
  | ctrl
  | isr
  | producer
  | consumer
  | host
  /-- PAL_READ and the pure functions: "any". -/
  | any
  deriving DecidableEq, Repr

/-- The execution contexts of 60_exceptions.md rule R215. -/
inductive Context where
  | interrupt
  | background
  | hardware
  deriving DecidableEq, Repr

/-- The agent of each operation, as the opcode map's column says (R82). -/
def Instr.agent : Instr → Agent
  | .reset | .arm _ | .palBuild | .tplBuild | .clearBuffers | .setBuffering _ => .host
  | .stream => .data
  | .lineEnd => .ctrl
  | .step | .reloadSource _ => .isr
  | .rebuildRow _ _ | .rebuild _ | .acqDisplay => .consumer
  | .fbWrite _ _ _ | .acqWrite => .producer
  | .palRead _ | .classify _ | .select _ | .nextY _ | .lane _ | .addr _ | .plainLine _ | .vsyncLine _ => .any

/-- The context an agent runs in (R215); an agent "any" is in none of its own. -/
def Agent.context : Agent → Option Context
  | .isr => some .interrupt
  | .producer | .consumer | .host => some .background
  | .data | .ctrl => some .hardware
  | .any => none

end Sys2Proof
end

