-- ==== Sys2Proof/WellFormed.lean ====
section
/-! DEFINITION. When a configuration is well formed (00_scope.md rules R4, R6, 20_memory.md rule R47) and when an operation's
operands lie in their ranges. -/

namespace Sys2Proof

/-- Start addresses of all 260 line buffers. -/
def Config.starts (c : Config) : List Nat :=
  c.tplAddr.toList.map BitVec.toNat ++ c.prepAddr.toList.map BitVec.toNat

/-- The ranges of `n` bytes at `a` and at `b` do not meet (20_memory.md rule R47(c)). -/
abbrev RangesApart (n a b : Nat) : Prop := a + n ≤ b ∨ b + n ≤ a

/-- Well-formedness as the spec states it. The condition `divider = 1` of R4(e) is STEP's own (40_scanout.md rule R106). -/
structure Config.WellFormed (c : Config) : Prop where
  /-- R8: only the ACTIVE strategy is admitted. -/
  active : c.strategy = .active
  /-- R4(a), horizontally. -/
  lineHolds : c.hVisible + c.hFrontPorch + c.hSyncPulse + c.hBackPorch ≤ c.wholeLine
  /-- R4(a), vertically. -/
  frameHolds : c.vVisible + c.vFrontPorch + c.vSyncPulse + c.vBackPorch ≤ c.wholeFrame
  /-- R4(b). -/
  dividerPos : 1 ≤ c.divider
  lineDivides : c.wholeLine % (4 * c.divider) = 0
  pulseDivides : c.hSyncPulse % c.divider = 0
  /-- R4(c). -/
  framePos : 1 ≤ c.wholeFrame
  linePos : 1 ≤ c.lineWords
  /-- R4(d). -/
  visibleFits : c.vVisible ≤ prepLines
  /-- R6: the four sync patterns are pairwise distinct. -/
  patternsDistinct : [c.noSync, c.hSync, c.vSync, c.vhSync].Nodup
  /-- R6: they lie inside SYNC_MASK. -/
  patternsSync : ∀ p ∈ [c.noSync, c.hSync, c.vSync, c.vhSync], p &&& c.colorMask = 0
  /-- R6: the masks are complementary. -/
  masksDisjoint : c.syncMask &&& c.colorMask = 0
  masksCover : c.syncMask ||| c.colorMask = 0xFF
  polaritySync : c.syncPolarity &&& c.colorMask = 0
  /-- R6: colours lie inside COLOR_MASK. -/
  expandColor : ∀ n : Fin 16, c.rgbiExpand[n] &&& c.syncMask = 0
  /-- R6: the sync pulse lies inside the line. -/
  pulseFits : c.hsStart + c.hsWidth ≤ c.lineSamples
  /-- R6: so does the active portion. -/
  activeFits : c.activeStart + activeSamples ≤ c.lineSamples
  activeEven : c.activeStart % 2 = 0
  /-- R6: the active portion does not meet the sync pulse (a pulse of width 0 meets nothing, log 19). -/
  activeClear : c.hsWidth = 0 ∨ c.activeStart + activeSamples ≤ c.hsStart ∨ c.hsStart + c.hsWidth ≤ c.activeStart
  /-- 20_memory.md rule R47(a), (b), (c). -/
  addrAligned : ∀ a ∈ c.starts, a % 4 = 0
  addrFits : ∀ a ∈ c.starts, a + c.lineBytes ≤ 2 ^ 32
  addrApart : c.starts.Pairwise (RangesApart c.lineBytes)
  /-- FB_SLOTS is 3, or 1 in single-buffer mode (00_scope.md rule R5); BUFFERING_INIT has no constraint (rule R6). -/
  slots : c.fbSlots = 3 ∨ c.fbSlots = 1

/-- R47(c) checked along the sorted start addresses: each buffer ends before the next begins. -/
def Config.addrApartCheck (c : Config) : Bool :=
  decide ((c.starts.insertionSort (· ≤ ·)).IsChain fun a b => a + c.lineBytes ≤ b)

/-- The same conditions as one check that can be evaluated; `Config.wf_iff` says that it is `Config.WellFormed`. -/
def Config.wf (c : Config) : Bool :=
  decide (c.strategy = .active)
  && decide (c.hVisible + c.hFrontPorch + c.hSyncPulse + c.hBackPorch ≤ c.wholeLine)
  && decide (c.vVisible + c.vFrontPorch + c.vSyncPulse + c.vBackPorch ≤ c.wholeFrame)
  && decide (1 ≤ c.divider) && decide (c.wholeLine % (4 * c.divider) = 0) && decide (c.hSyncPulse % c.divider = 0)
  && decide (1 ≤ c.wholeFrame) && decide (1 ≤ c.lineWords)
  && decide (c.vVisible ≤ prepLines)
  && decide [c.noSync, c.hSync, c.vSync, c.vhSync].Nodup
  && [c.noSync, c.hSync, c.vSync, c.vhSync].all (fun p => p &&& c.colorMask == 0)
  && decide (c.syncMask &&& c.colorMask = 0) && decide (c.syncMask ||| c.colorMask = 0xFF)
  && decide (c.syncPolarity &&& c.colorMask = 0)
  && c.rgbiExpand.toList.all (fun e => e &&& c.syncMask == 0)
  && decide (c.hsStart + c.hsWidth ≤ c.lineSamples) && decide (c.activeStart + activeSamples ≤ c.lineSamples)
  && decide (c.activeStart % 2 = 0)
  && decide (c.hsWidth = 0 ∨ c.activeStart + activeSamples ≤ c.hsStart ∨ c.hsStart + c.hsWidth ≤ c.activeStart)
  && c.starts.all (fun a => a % 4 == 0) && c.starts.all (fun a => decide (a + c.lineBytes ≤ 2 ^ 32))
  && c.addrApartCheck
  && decide (c.fbSlots = 3 ∨ c.fbSlots = 1)

/-- Along addresses in rising order, buffers that end before the next begins are pairwise apart, and conversely. -/
theorem Config.addrApartCheck_iff {c : Config} (hn : 1 ≤ c.lineBytes) :
    c.addrApartCheck = true ↔ c.starts.Pairwise (RangesApart c.lineBytes) := by
  have hsym : Std.Symm (RangesApart c.lineBytes) := ⟨fun a b h => h.symm⟩
  have htr : IsTrans Nat fun a b => a + c.lineBytes ≤ b := ⟨fun a b d h h' => by omega⟩
  have hperm := List.perm_insertionSort (· ≤ ·) c.starts
  have hsorted : (c.starts.insertionSort (· ≤ ·)).Pairwise (· ≤ ·) := List.pairwise_insertionSort _ _
  rw [Config.addrApartCheck, decide_eq_true_iff, List.isChain_iff_pairwise, ← hperm.pairwise_iff (fun h => h.symm)]
  constructor
  · exact fun h => h.imp fun h => Or.inl h
  · exact fun h => (hsorted.and h).imp fun ⟨h, h'⟩ => by omega

/-- The check decides well-formedness. -/
theorem Config.wf_iff (c : Config) : c.wf = true ↔ c.WellFormed := by
  constructor
  · intro h
    simp only [Config.wf, Bool.and_eq_true, decide_eq_true_eq, List.all_eq_true, beq_iff_eq] at h
    obtain ⟨⟨⟨⟨⟨⟨⟨⟨⟨⟨⟨⟨⟨⟨⟨⟨⟨⟨⟨⟨⟨⟨a, b⟩, d⟩, e⟩, f⟩, g⟩, i⟩, j⟩, k⟩, l⟩, m⟩, n⟩, o⟩, p⟩, q⟩, r⟩, t⟩, u⟩, v⟩, w⟩, x⟩, y⟩, z⟩ := h
    have hn : 1 ≤ c.lineBytes := by unfold Config.lineBytes; omega
    exact ⟨a, b, d, e, f, g, i, j, k, l, m, n, o, p, fun n => q _ (by simp), r, t, u, v, w, x,
      (Config.addrApartCheck_iff hn).mp y, z⟩
  · rintro ⟨a, b, d, e, f, g, i, j, k, l, m, n, o, p, q, r, t, u, v, w, x, y, z⟩
    have hn : 1 ≤ c.lineBytes := by unfold Config.lineBytes; omega
    have hq : ∀ e ∈ c.rgbiExpand.toList, e &&& c.syncMask = 0 := by
      intro e he
      obtain ⟨i, hi, rfl⟩ := List.getElem_of_mem he
      simpa using q ⟨i, by simpa using hi⟩
    simp only [Config.wf, Bool.and_eq_true, decide_eq_true_eq, List.all_eq_true, beq_iff_eq]
    exact ⟨⟨⟨⟨⟨⟨⟨⟨⟨⟨⟨⟨⟨⟨⟨⟨⟨⟨⟨⟨⟨⟨a, b⟩, d⟩, e⟩, f⟩, g⟩, i⟩, j⟩, k⟩, l⟩, m⟩, n⟩, o⟩, p⟩, hq⟩, r⟩, t⟩, u⟩, v⟩, w⟩, x⟩, (Config.addrApartCheck_iff hn).mpr y⟩, z⟩

/-- A configuration with the proof that it is well formed. "The model refuses (gives no run to) a configuration that is not
well formed" (R4): no state holds one, so there is no run of it. -/
structure WfConfig extends Config where
  ok : toConfig.WellFormed
  deriving DecidableEq, Repr

/-- REF passes the check. -/
theorem Config.ref_wf : Config.ref.wf = true := by decide +kernel

/-- REF as a well-formed configuration (log 1). -/
def WfConfig.ref : WfConfig := ⟨Config.ref, (Config.wf_iff _).mp Config.ref_wf⟩

/-- The operands lie in the ranges the rules give them: an existing slot (30_encoding.md rule R83(b)), a scanline number or a
sample index of the configuration for the pure functions (40_scanout.md rules R100, R102, R103, 43_line_buffers.md rules R161,
R162). A selector is well formed by its type. -/
def Instr.wf (c : Config) : Instr → Bool
  | .rebuildRow slot _ | .rebuild slot | .fbWrite slot _ _ => decide (slot.toNat < c.fbSlots)
  | .classify y | .select y | .nextY y => decide (y < c.wholeFrame)
  | .plainLine k | .vsyncLine k => decide (k < c.lineSamples)
  | .reset | .arm _ | .stream | .lineEnd | .step | .palRead _ | .palBuild | .tplBuild | .acqWrite | .acqDisplay
  | .clearBuffers | .setBuffering _ | .reloadSource _ | .lane _ | .addr _ => true

end Sys2Proof
end

