-- ==== Sys2Proof/Decode.lean ====
section
/-! DEFINITION. Event words (30_encoding.md rules R76, R77, R81 to R84): the opcode map, the decoder, total and refusing by
name, and the encoder. -/

namespace Sys2Proof

/-- Region code, 2 bits (30_encoding.md rule R76). -/
def Region.code : Region → BitVec 2
  | .visible => 0b00
  | .frontPorch => 0b01
  | .vsync => 0b10
  | .backPorch => 0b11

/-- Buffer selector, 9 bits (30_encoding.md rule R77): `0 rrrrrrrr` or `1 000000 kk`. -/
def BufId.sel : BufId → BitVec 9
  | .prep r => 0#1 ++ r
  | .tpl k => 1#1 ++ 0#6 ++ k

/-- The buffer a selector names; none for a reserved selector (R77). -/
def bufOfSel (sel : BitVec 9) : Option BufId :=
  if sel.extractLsb' 8 1 = 0 then some (.prep (sel.extractLsb' 0 8))
  else if sel.extractLsb' 2 6 = 0 then some (.tpl (sel.extractLsb' 0 2))
  else none

/-- One row of the opcode map (R82). -/
structure OpRow where
  mnemonic : String
  pattern : Word
  mask : Word
  deriving DecidableEq, Repr

/-- The opcode map, indexed by `op` (R82). -/
def opRow (op : BitVec 4) : OpRow :=
  match op.toNat with
  | 0x0 => ⟨"RESET", 0x00000000, 0xFFFFFFFF⟩
  | 0x1 => ⟨"ARM", 0x10000000, 0xFFFFFE00⟩
  | 0x2 => ⟨"STREAM", 0x20000000, 0xFFFFFFFF⟩
  | 0x3 => ⟨"LINE_END", 0x30000000, 0xFFFFFFFF⟩
  | 0x4 => ⟨"STEP", 0x40000000, 0xFFFFFFFF⟩
  | 0x5 => ⟨"PAL_READ", 0x50000000, 0xFFFFFF00⟩
  | 0x6 => ⟨"PAL_BUILD", 0x60000000, 0xFFFFFFFF⟩
  | 0x7 => ⟨"TPL_BUILD", 0x70000000, 0xFFFFFFFF⟩
  | 0x8 => ⟨"REBUILD_ROW", 0x80000000, 0xFCFFFF00⟩
  | 0x9 => ⟨"REBUILD", 0x90000000, 0xFCFFFFFF⟩
  | 0xA => ⟨"FB_WRITE", 0xA0000000, 0xFC800000⟩
  | 0xB => ⟨"ACQ_WRITE", 0xB0000000, 0xFFFFFFFF⟩
  | 0xC => ⟨"ACQ_DISPLAY", 0xC0000000, 0xFFFFFFFF⟩
  | 0xD => ⟨"CLEAR_BUFFERS", 0xD0000000, 0xFFFFFFFF⟩
  | 0xE => ⟨"SET_BUFFERING", 0xE0000000, 0xFFFFFFFE⟩
  | _ => ⟨"RELOAD_SOURCE", 0xF0000000, 0xFFFFFE00⟩

/-- The `op` field, bits 31:28 (R81). -/
def fieldOp (w : Word) : BitVec 4 := w.extractLsb' 28 4

/-- The `slot` field, bits 25:24 (R81). -/
def fieldSlot (w : Word) : BitVec 2 := w.extractLsb' 24 2

/-- The `off` field of FB_WRITE, bits 22:8 (R81). -/
def fieldOff (w : Word) : BitVec 15 := w.extractLsb' 8 15

/-- The low byte: `val`, `idx` or `row` (R81). -/
def fieldLow (w : Word) : Byte := w.extractLsb' 0 8

/-- The `sel` field, bits 8:0 (R81). -/
def fieldSel (w : Word) : BitVec 9 := w.extractLsb' 0 9

/-- The `en` bit, bit 0 (R81). -/
def fieldEn (w : Word) : Bool := w.getLsbD 0

/-- A `slot` operand: slot 3 is reserved in every configuration (R83(b)); a slot the configuration does not have is refused
where the configuration is known, by `Instr.wf`. -/
def decodeSlot (w : Word) (k : BitVec 2 → Instr) : Except Reserved Instr :=
  if fieldSlot w = 3 then .error .slot else .ok (k (fieldSlot w))

/-- A `sel` operand (R77, R83(c)). -/
def decodeSel (w : Word) (k : BufId → Instr) : Except Reserved Instr :=
  match bufOfSel (fieldSel w) with
  | some b => .ok (k b)
  | none => .error .selector

/-- The operands of the operation `op` selects (R82). -/
def decodeFields (w : Word) : Except Reserved Instr :=
  match (fieldOp w).toNat with
  | 0x0 => .ok .reset
  | 0x1 => decodeSel w .arm
  | 0x2 => .ok .stream
  | 0x3 => .ok .lineEnd
  | 0x4 => .ok .step
  | 0x5 => .ok (.palRead (fieldLow w))
  | 0x6 => .ok .palBuild
  | 0x7 => .ok .tplBuild
  | 0x8 => decodeSlot w (fun s => .rebuildRow s (fieldLow w))
  | 0x9 => decodeSlot w .rebuild
  | 0xA => decodeSlot w (fun s => .fbWrite s (fieldOff w) (fieldLow w))
  | 0xB => .ok .acqWrite
  | 0xC => .ok .acqDisplay
  | 0xD => .ok .clearBuffers
  | 0xE => .ok (.setBuffering (fieldEn w))
  | _ => decodeSel w .reloadSource

/-- The operation an event word spells, or why it is reserved (R83). -/
def decode (w : Word) : Except Reserved Instr :=
  if w &&& (opRow (fieldOp w)).mask = (opRow (fieldOp w)).pattern then decodeFields w else .error .bits

/-- An event word from its fields, in the order of R81's table: op, 00, slot, 0, off, low byte. -/
def eventWord (op : BitVec 4) (slot : BitVec 2) (off : BitVec 15) (low : Byte) : Word :=
  op ++ 0#2 ++ slot ++ 0#1 ++ off ++ low

/-- An event word with a selector in bits 8:0 (R81). -/
def eventWordSel (op : BitVec 4) (b : BufId) : Word := op ++ 0#19 ++ b.sel

/-- The event word of an operation (R82); none for a pure function, which has no event word. -/
def encode : Instr → Option Word
  | .reset => some (eventWord 0x0 0 0 0)
  | .arm b => some (eventWordSel 0x1 b)
  | .stream => some (eventWord 0x2 0 0 0)
  | .lineEnd => some (eventWord 0x3 0 0 0)
  | .step => some (eventWord 0x4 0 0 0)
  | .palRead idx => some (eventWord 0x5 0 0 idx)
  | .palBuild => some (eventWord 0x6 0 0 0)
  | .tplBuild => some (eventWord 0x7 0 0 0)
  | .rebuildRow slot row => some (eventWord 0x8 slot 0 row)
  | .rebuild slot => some (eventWord 0x9 slot 0 0)
  | .fbWrite slot off val => some (eventWord 0xA slot off val)
  | .acqWrite => some (eventWord 0xB 0 0 0)
  | .acqDisplay => some (eventWord 0xC 0 0 0)
  | .clearBuffers => some (eventWord 0xD 0 0 0)
  | .setBuffering en => some (eventWord 0xE 0 0 (if en then 1 else 0))
  | .reloadSource b => some (eventWordSel 0xF b)
  | .classify _ | .select _ | .nextY _ | .lane _ | .addr _ | .plainLine _ | .vsyncLine _ => none

/-- The instruction the decoder reads from a table row's bits: an event word is one 32-bit word, whose bit 0 is its least
significant bit (R81, R84). -/
def decodeTableWord (nbits w : Nat) : Option Instr :=
  if nbits ≤ 32 then (decode (BitVec.ofNat 32 w)).toOption else none

end Sys2Proof
end

