-- ==== Sys2Proof/Machine/Operands.lean ====
section
/-! DEFINITION. The combinational functions of the configuration: the scanline classifier and selector (40_scanout.md), the
multiplexer's addresses (42_dma_mux.md), the palette's lanes (41_palette.md), the line patterns (43_line_buffers.md), and the
reset content of the memories. -/

namespace Sys2Proof.Machine

/-- CLASSIFY(y) for y in [0, whole_frame) (40_scanout.md rule R100). -/
def classify (c : Config) (y : Nat) : Region :=
  if y < c.endVisible then .visible
  else if y < c.endFrontPorch then .frontPorch
  else if y < c.endVSync then .vsync
  else .backPorch

/-- SELECT(y): the line buffer scanline y is emitted from (40_scanout.md rule R102). -/
def select (c : Config) (y : Nat) : BufId :=
  match classify c y with
  | .visible => .prep (BitVec.ofNat 8 y)
  | .frontPorch => .blank
  | .vsync => .vsync
  | .backPorch => .blank

/-- NEXT_Y(y): the successor scanline, wrapping at whole_frame (40_scanout.md rule R103). -/
def nextY (c : Config) (y : Nat) : Nat := if y + 1 = c.wholeFrame then 0 else y + 1

/-- ADDR(b): the multiplexer's data path (42_dma_mux.md rule R135, 20_memory.md rule R47). -/
def addr (c : Config) : BufId → Word
  | .tpl k => c.tplAddr[k.toNat]
  | .prep r => c.prepAddr[r.toNat]

/-- IDLE, the idle sync pattern (41_palette.md rule R121). -/
def idle (c : Config) : Byte := c.noSync ^^^ c.syncPolarity

/-- LANE(n): the sample byte of one pixel (41_palette.md rule R122). -/
def lane (c : Config) (n : BitVec 4) : Byte := idle c ||| c.rgbiExpand[n.toNat]

/-- The left pixel of a frame-buffer byte: bits 3:0 (30_encoding.md rule R71). -/
def leftPixel (b : Byte) : BitVec 4 := b.extractLsb' 0 4

/-- The right pixel of a frame-buffer byte: bits 7:4 (30_encoding.md rule R71). -/
def rightPixel (b : Byte) : BitVec 4 := b.extractLsb' 4 4

/-- The palette word PAL_BUILD gives index b: lane 1 from the right pixel, lane 0 from the left (41_palette.md rule R123). -/
def palWord (c : Config) (b : Byte) : PalWord := lane c (rightPixel b) ++ lane c (leftPixel b)

/-- Lane 0 of a palette word, the earlier sample (30_encoding.md rule R72). -/
def lane0 (p : PalWord) : Byte := p.extractLsb' 0 8

/-- Lane 1 of a palette word, the later sample (30_encoding.md rule R72). -/
def lane1 (p : PalWord) : Byte := p.extractLsb' 8 8

/-- A palette word as the two bytes of a little-endian store (20_memory.md rule R45). -/
def palBytes (p : PalWord) : List Byte := [lane0 p, lane1 p]

/-- Sample k lies in the horizontal sync pulse (43_line_buffers.md rules R161, R162). -/
abbrev InPulse (c : Config) (k : Nat) : Prop := c.hsStart ≤ k ∧ k < c.hsStart + c.hsWidth

/-- PLAIN_LINE(k) (43_line_buffers.md rule R161). -/
def plainLine (c : Config) (k : Nat) : Byte :=
  if InPulse c k then c.hSync ^^^ c.syncPolarity else c.noSync ^^^ c.syncPolarity

/-- VSYNC_LINE(k) (43_line_buffers.md rule R162). -/
def vsyncLine (c : Config) (k : Nat) : Byte :=
  if InPulse c k then c.vhSync ^^^ c.syncPolarity else c.vSync ^^^ c.syncPolarity

/-- Sample k of template TPL(t): the vertical-sync template takes the vertical-sync pattern, the other three the plain one
(43_line_buffers.md rule R163). -/
def tplSample (c : Config) (t : BitVec 2) (k : Nat) : Byte := if t = 1 then vsyncLine c k else plainLine c k

/-- Address a lies in buffer b, which occupies LINE_BYTES bytes from ADDR(b) (20_memory.md rule R42). -/
abbrev InBuf (c : Config) (b : BufId) (a : Nat) : Prop := (addr c b).toNat ≤ a ∧ a < (addr c b).toNat + c.lineBytes

/-- The four templates. -/
def allTpl : List (BitVec 2) := [0, 1, 2, 3]

/-- The 256 rows of a frame buffer, in increasing order. -/
def allRows : List Byte := (List.range 256).map (BitVec.ofNat 8)

/-- The template a byte address of the space LINE lies in, if any. -/
def tplAt (c : Config) (a : Nat) : Option (BitVec 2) := allTpl.find? fun t => decide (InBuf c (.tpl t) a)

/-- The prepared line a byte address of the space LINE lies in, if any. -/
def prepAt (c : Config) (a : Nat) : Option Byte := allRows.find? fun r => decide (InBuf c (.prep r) a)

/-- What a byte of LINE holds at reset, and so what an address the state does not list reads as: the constructed content in a
template, nothing in a prepared line (70_reset_and_hazards.md rule R232, 20_memory.md rule R59). -/
def lineInitial (c : Config) (a : Nat) : Option Byte :=
  (tplAt c a).map fun t => tplSample c t (a - (addr c (.tpl t)).toNat)

/-- What a byte of FB holds at reset: nothing (70_reset_and_hazards.md rules R230, R232). -/
def fbInitial (_ : Nat) : Option Byte := none

/-- What an entry of PAL holds at reset: the constructed content (70_reset_and_hazards.md rule R232). -/
def palInitial (c : Config) (i : Nat) : Option PalWord :=
  if i < palEntries then some (palWord c (BitVec.ofNat 8 i)) else none

/-- The key of byte o of slot s in the space FB, a flat numbering of (slot, offset) (20_memory.md rule R46, log 22). -/
def fbKey (slot : BitVec 2) (off : Nat) : Nat := slot.toNat * fbBytes + off

/-- The offset of row r, byte column c: row-major, FB_STRIDE bytes a row (20_memory.md rule R46). -/
def fbOffset (row : Byte) (col : Nat) : Nat := row.toNat * fbStride + col

/-- A scanline word from its four samples, the lowest sample index in bits 7:0 (20_memory.md rule R43). -/
def scanWord (b0 b1 b2 b3 : Byte) : Word := b3 ++ b2 ++ b1 ++ b0

/-- The slot a rotation index names, as a slot result code (30_encoding.md rule R78). -/
def slotCode (k : Fin 3) : BitVec 2 := BitVec.ofNat 2 k.val

/-- The code of "no buffer" (30_encoding.md rule R78). -/
def noSlotCode : BitVec 2 := 3

end Sys2Proof.Machine
end

