-- ==== Sys2Proof/Machine/State.lean ====
section
/-! DEFINITION. The machine's state as plain data (10_state.md, 20_memory.md rule R40), why a step can stop, and the state at
reset (10_state.md rule R28, 70_reset_and_hazards.md rule R230). -/

namespace Sys2Proof.Machine

/-- The three `ready` flags, one per slot (10_state.md rule R21). -/
structure Ready where
  slot0 : Bool
  slot1 : Bool
  slot2 : Bool
  deriving DecidableEq, Repr

/-- A prepared-line rebuild in progress: slot, row and the index of the next micro-step (10_state.md rule R31). -/
structure Rebuild where
  slot : BitVec 2
  row : Byte
  next : Nat
  deriving DecidableEq, Repr

/-- A model fault with the information it records (60_exceptions.md rule R200). -/
inductive FaultMark where
  /-- F_UNINIT_LINE, code 1: STREAM read a prepared-line byte nothing has written; the byte address of the word. -/
  | uninitLine (a : Nat)
  /-- F_UNINIT_FB, code 2: REBUILD_ROW read a frame-buffer byte nothing has written; slot, row, byte column. -/
  | uninitFb (slot : BitVec 2) (row : Byte) (col : Nat)
  deriving DecidableEq, Repr

/-- The value an operation returns. -/
inductive OpResult where
  /-- A slot result code: ACQ_WRITE, ACQ_DISPLAY (30_encoding.md rule R78). -/
  | slot (code : BitVec 2)
  /-- A palette word: PAL_READ (41_palette.md rule R125). -/
  | palette (w : PalWord)
  /-- CLASSIFY (40_scanout.md rule R100). -/
  | region (r : Region)
  /-- SELECT (40_scanout.md rule R102). -/
  | buffer (b : BufId)
  /-- NEXT_Y (40_scanout.md rule R103). -/
  | scanline (y : Nat)
  /-- LANE, PLAIN_LINE, VSYNC_LINE: a sample byte (41_palette.md rule R122, 43_line_buffers.md rules R161, R162). -/
  | sample (v : Byte)
  /-- ADDR (42_dma_mux.md rule R135). -/
  | pointer (p : Word)
  deriving DecidableEq, Repr

/-- One turn of the schedule: which agent's operation comes next in the interleaving (20_memory.md rule R54). -/
inductive Turn where
  /-- The operation an event word spells, performed to its end. -/
  | event (w : Word)
  /-- One micro-step of REBUILD_ROW slot, row, so that other agents' turns can come between (43_line_buffers.md rule R166). -/
  | micro (slot : BitVec 2) (row : Byte)
  deriving DecidableEq, Repr

/-- Why an agent is not enabled: the part of the operation's precondition that is false. The operation then has no step
(00_scope.md section 6, 93_implementation_defined.md U13, U14). -/
inductive Blocked where
  /-- A fault is set: only RESET is enabled (60_exceptions.md rule R200). -/
  | faultSet
  /-- STREAM, LINE_END before ARM (10_state.md rule R16). -/
  | notArmed
  /-- A second ARM (42_dma_mux.md rule R137). -/
  | alreadyArmed
  /-- STREAM when the line is finished (42_dma_mux.md rule R138). -/
  | lineComplete
  /-- LINE_END before the line is finished (42_dma_mux.md rule R139). -/
  | lineIncomplete
  /-- STEP without a pending interrupt (40_scanout.md rule R104). -/
  | noInterrupt
  /-- Another prepared-line rebuild is in progress (10_state.md rule R31, 20_memory.md rule R54, log 11). -/
  | rebuildInProgress
  deriving DecidableEq, Repr

/-- Why the machine stops with a fault. The spec's own two faults are not here: they are states (`FaultMark`). -/
inductive Fault where
  /-- STREAM at an address that lies in no line buffer, which no reachable state has (20_memory.md rules R40, R49).
  Raised by STREAM. Safe (log 15). -/
  | noLineBuffer (a : Nat)
  deriving DecidableEq, Repr

/-- Why a step has no meaning. -/
inductive Refusal where
  /-- The instruction has no meaning yet. Raised by no arm of `exec`. Safe. -/
  | notModelled (mnemonic : String)
  /-- The operation's precondition is false, so the agent has no step (93_implementation_defined.md U13, U14). Raised by every
  event's meaning but RESET's; the machine's step then passes the turn. Safe (log 3). -/
  | notEnabled (why : Blocked)
  /-- A reserved event word, or an operand only a reserved word has (30_encoding.md rule R83). Raised by the step and by the
  meanings with a slot operand. Safe. -/
  | reservedWord (why : Reserved)
  /-- STEP with a divider other than 1 (40_scanout.md rule R106, 93_implementation_defined.md U1). Raised by STEP. Safe. -/
  | dividerNotOne
  /-- SET_BUFFERING 1 with one frame-buffer slot (44_host_rotation.md rule R186). Raised by SET_BUFFERING. Safe. -/
  | oneSlotOnly
  /-- A function of the scanline state machine or a line pattern outside its domain (93_implementation_defined.md U19). Raised
  by the pure functions, and by STEP in a state with `y` out of range, which no reachable state has. Safe (logs 13, 14). -/
  | outOfDomain
  deriving DecidableEq, Repr

/-- The machine's state. The fields from `config` to `outStream` are the spec's (10_state.md rule R10); `result`, `schedule` and
`draws` are the model's own and no rule of the spec reads them. -/
structure State where
  /-- The configuration registers, read-only (10_state.md rule R24). -/
  config : WfConfig
  /-- The scanline counter (R11). -/
  y : Nat
  /-- The published pointer (R14). -/
  srcPtr : Word
  /-- The pending latch of the line interrupt (R15). -/
  irqPending : Bool
  /-- The chain has been armed (R16). -/
  dmaArmed : Bool
  /-- Address of the line buffer being streamed (R17). -/
  dmaBase : Word
  /-- Words of the current line already put out (R18). -/
  dmaCnt : Nat
  /-- Slot the producer last claimed (R19). -/
  inIndex : Fin 3
  /-- Slot the consumer last chose (R20). -/
  outIndex : Fin 3
  /-- The `ready` flags (R21). -/
  ready : Ready
  /-- The first-frame gate (R22). -/
  firstFrame : Bool
  /-- Triple buffering on (R23). -/
  bufferingMode : Bool
  /-- Prepared-line rebuild in progress (R31). -/
  rb : Option Rebuild
  /-- The sticky model-fault mark (R32). -/
  fault : Option FaultMark
  /-- Space PAL: the entries that differ from their reset content (20_memory.md rule R41, log 7). -/
  pal : List (Nat × PalWord)
  /-- Space LINE: the bytes that differ from their reset content (20_memory.md rule R42, log 7). -/
  line : List Host.Cell
  /-- Space FB: the bytes written, by `fbKey` (20_memory.md rule R46). -/
  fb : List Host.Cell
  /-- The scanline words put on the output port, in order (R27). -/
  outStream : List Word
  /-- MODEL: the value the last value-returning operation returned (log 6). -/
  result : Option OpResult
  /-- MODEL: the turns still to be performed (log 2). -/
  schedule : List Turn
  /-- MODEL: how many free values have been drawn (log 5). -/
  draws : Nat
  deriving DecidableEq, Repr

/-- The configuration of a state as its plain record. -/
abbrev State.cfg (s : State) : Config := s.config.toConfig

/-- Every field at its reset value under a configuration (10_state.md rule R28, 70_reset_and_hazards.md rule R230). `dmaBase` is
unspecified there and 0 here: DESIGN CHOICE, unsafe (log 5). -/
def State.resetOf (c : WfConfig) : State where
  config := c
  y := 0
  srcPtr := addr c.toConfig (select c.toConfig 0)
  irqPending := false
  dmaArmed := false
  dmaBase := 0
  dmaCnt := 0
  inIndex := 0
  outIndex := 0
  ready := ⟨false, false, false⟩
  firstFrame := true
  bufferingMode := c.bufferingInit
  rb := none
  fault := none
  pal := []
  line := []
  fb := []
  outStream := []
  result := none
  schedule := []
  draws := 0

/-- The machine right after reset, with the reference configuration as the configured value of its configuration registers
(log 1). -/
def State.reset : State := State.resetOf WfConfig.ref

/-- The outcome of an operation or a step. -/
abbrev Answer := Host.Outcome State Fault Refusal

end Sys2Proof.Machine
end

