-- ==== Sys2Proof/Machine/Flags.lean ====
section
/-! DEFINITION. The one-bit state (10_state.md section 4: "the block has no arithmetic flags"): the `ready` flags, the interrupt
latch, the armed bit, the first-frame gate and the buffering mode, each with the updates its rule names. -/

namespace Sys2Proof.Machine

/-- `ready[k]` (10_state.md rule R21). -/
def Ready.get (f : Ready) (k : Fin 3) : Bool :=
  match k with
  | 0 => f.slot0
  | 1 => f.slot1
  | 2 => f.slot2

/-- `ready[k] <- v` (10_state.md rule R21). -/
def Ready.set (f : Ready) (k : Fin 3) (v : Bool) : Ready :=
  match k with
  | 0 => { f with slot0 := v }
  | 1 => { f with slot1 := v }
  | 2 => { f with slot2 := v }

/-- All three flags false (44_host_rotation.md rule R185). -/
def Ready.clear : Ready := ⟨false, false, false⟩

/-- `ready[k] <- v` in the state. -/
def setReady (k : Fin 3) (v : Bool) (s : State) : State := { s with ready := s.ready.set k v }

/-- Raising the line interrupt: the latch becomes 1, and stays 1 if it was (10_state.md rule R15, 60_exceptions.md rule R211). -/
def raiseIrq (s : State) : State := { s with irqPending := true }

/-- Taking the line interrupt clears the latch (60_exceptions.md rule R211). -/
def takeIrq (s : State) : State := { s with irqPending := false }

/-- `dma_armed <- 1` (10_state.md rule R16). -/
def setArmed (s : State) : State := { s with dmaArmed := true }

/-- `first_frame <- false` (10_state.md rule R22). -/
def closeFirstFrame (s : State) : State := { s with firstFrame := false }

/-- `buffering_mode <- e` (10_state.md rule R23). -/
def setBufferingMode (e : Bool) (s : State) : State := { s with bufferingMode := e }

end Sys2Proof.Machine
end

