-- ==== Sys2Proof/Machine/Ops.lean ====
section
/-! DEFINITION. The named operations over memories and registers, taking a model fault, taking the line interrupt, and what an
operation does when its precondition is false. -/

namespace Sys2Proof.Machine

/-! ### Memories: lists of (address, value) pairs in one canonical form -/

/-- The value a memory lists at an address. -/
def memFind {α : Type} (m : List (Nat × α)) (a : Nat) : Option α := (m.find? fun c => c.1 == a).map (·.2)

/-- Reading: the listed value, else what an unlisted address reads as; none where nothing was ever written. -/
def memRead {α : Type} (init : Nat → Option α) (m : List (Nat × α)) (a : Nat) : Option α :=
  match memFind m a with
  | some v => some v
  | none => init a

/-- The values at consecutive addresses from `a`. -/
def cellsAt {α : Type} (a : Nat) (vs : List α) : List (Nat × α) := (vs.zipIdx a).map fun p => (p.2, p.1)

/-- Writing values at consecutive addresses from `a`, keeping the canonical form: a value equal to what an unlisted address
reads as is not listed. -/
def memWrite {α : Type} [DecidableEq α] (init : Nat → Option α) (m : List (Nat × α)) (a : Nat) (vs : List α) : List (Nat × α) :=
  if vs.isEmpty then m
  else m.filter (fun c => decide (c.1 < a)) ++ (cellsAt a vs).filter (fun c => decide (init c.1 ≠ some c.2))
    ++ m.filter (fun c => decide (a + vs.length ≤ c.1))

/-- The canonical form: addresses strictly rising, no entry equal to what an unlisted address reads as. -/
def Memory.wf {α : Type} [DecidableEq α] (init : Nat → Option α) (m : List (Nat × α)) : Bool :=
  decide ((m.map (·.1)).IsChain (· < ·)) && m.all fun c => decide (init c.1 ≠ some c.2)

/-- A byte of the space LINE; none where nothing was ever written (20_memory.md rule R59). -/
def lineByte (s : State) (a : Nat) : Option Byte := memRead (lineInitial s.cfg) s.line a

/-- MemWrite of consecutive bytes of the space LINE (20_memory.md rules R43, R50). -/
def storeLine (a : Nat) (vs : List Byte) (s : State) : State := { s with line := memWrite (lineInitial s.cfg) s.line a vs }

/-- MemRead(a, 4): a scanline word of LINE, little-endian (20_memory.md rule R43); none if one of its bytes was never written. -/
def lineWord (s : State) (a : Nat) : Option Word :=
  match lineByte s a, lineByte s (a + 1), lineByte s (a + 2), lineByte s (a + 3) with
  | some b0, some b1, some b2, some b3 => some (scanWord b0 b1 b2 b3)
  | _, _, _, _ => none

/-- A byte address lies in one of the 260 line buffers (20_memory.md rule R42). -/
def lineMapped (c : Config) (a : Nat) : Bool := (tplAt c a).isSome || (prepAt c a).isSome

/-- The four bytes of a word lie in line buffers. -/
def wordMapped (c : Config) (a : Nat) : Bool :=
  lineMapped c a && lineMapped c (a + 1) && lineMapped c (a + 2) && lineMapped c (a + 3)

/-- FB[s][o]; none where nothing was ever written (20_memory.md rules R46, R59). -/
def fbByte (s : State) (slot : BitVec 2) (off : Nat) : Option Byte := memRead fbInitial s.fb (fbKey slot off)

/-- FB[s][o], FB[s][o+1], ... <- vs (20_memory.md rule R46). -/
def storeFb (slot : BitVec 2) (off : Nat) (vs : List Byte) (s : State) : State :=
  { s with fb := memWrite fbInitial s.fb (fbKey slot off) vs }

/-- The 128 bytes of one frame-buffer row, none where nothing was ever written. -/
def fbRow (s : State) (slot : BitVec 2) (row : Byte) : List (Option Byte) :=
  let first := fbKey slot (fbOffset row 0)
  let cells := s.fb.filter fun c => decide (first ≤ c.1) && decide (c.1 < first + fbStride)
  (List.range fbStride).map fun col => memFind cells (first + col)

/-- PAL[i] (41_palette.md rules R120, R125): every index holds a word. -/
def palEntry (s : State) (i : Byte) : PalWord := (memRead (palInitial s.cfg) s.pal i.toNat).getD (palWord s.cfg i)

/-- PAL[0], PAL[1], ... <- ws (41_palette.md rule R123). -/
def storePal (ws : List PalWord) (s : State) : State := { s with pal := memWrite (palInitial s.cfg) s.pal 0 ws }

/-! ### Registers -/

/-- `y <- v` (10_state.md rule R11). -/
def setY (v : Nat) (s : State) : State := { s with y := v }

/-- RELOAD_SOURCE's action, which STEP performs too: `src_ptr <- ADDR(b)` (42_dma_mux.md rule R136). -/
def publish (b : BufId) (s : State) : State := { s with srcPtr := addr s.cfg b }

/-- Loading the data channel: `dma_base <- p; dma_cnt <- 0` (42_dma_mux.md rules R137, R139). -/
def loadChain (p : Word) (s : State) : State := { s with dmaBase := p, dmaCnt := 0 }

/-- `emit OUT(w)` and `dma_cnt <- dma_cnt + 1` (42_dma_mux.md rule R138, 20_memory.md rule R52). -/
def emitWord (w : Word) (s : State) : State := { s with outStream := s.outStream ++ [w], dmaCnt := s.dmaCnt + 1 }

/-- `in_index <- k` (10_state.md rule R19). -/
def setIn (k : Fin 3) (s : State) : State := { s with inIndex := k }

/-- `out_index <- k` (10_state.md rule R20). -/
def setOut (k : Fin 3) (s : State) : State := { s with outIndex := k }

/-- The rotation registers at their cleared values (44_host_rotation.md rule R185). -/
def clearRotation (s : State) : State := { s with inIndex := 0, outIndex := 0, ready := Ready.clear, firstFrame := true }

/-- `rb <- r` (10_state.md rule R31). -/
def setRb (r : Option Rebuild) (s : State) : State := { s with rb := r }

/-- The operation returns a value (log 6). -/
def giveResult (r : OpResult) (s : State) : State := { s with result := some r }

/-- The schedule loses its first turn (log 2). -/
def popTurn (s : State) : State := { s with schedule := s.schedule.tail }

/-- A turn placed before all others (log 2). -/
def placeTurn (t : Turn) (s : State) : State := { s with schedule := t :: s.schedule }

/-! ### Faults, the interrupt, preconditions -/

/-- Taking a model fault, `raise F(info)`: the mark is recorded and nothing else changes (60_exceptions.md rule R200; no vector,
no saved register: R213, R222). -/
def raiseFault (f : FaultMark) (s : State) : State := { s with fault := some f }

/-- The code of a model fault (60_exceptions.md rule R200). -/
def FaultMark.code : FaultMark → Nat
  | .uninitLine _ => 1
  | .uninitFb _ _ _ => 2

/-- The body of the interrupt handler, one indivisible step: increment, classify the new scanline, publish, clear the latch
(40_scanout.md rule R104, 60_exceptions.md rule R213). It returns to nothing (R214). -/
def handleLine (s : State) : State :=
  let v := nextY s.cfg s.y
  takeIrq (publish (select s.cfg v) (setY v s))

/-- An operation whose precondition `p` is false has no step (00_scope.md section 6, 93_implementation_defined.md U13). -/
def whenEnabled (p : Prop) [Decidable p] (why : Blocked) (k : Answer) : Answer :=
  if p then k else .refused (.notEnabled why)

/-- Every operation but RESET needs `fault = none` (60_exceptions.md rule R200). -/
def whenFaultFree (s : State) (k : Answer) : Answer := whenEnabled (s.fault = none) .faultSet k

/-- A slot operand the configuration does not have is reserved (30_encoding.md rule R83(b)). -/
def whenSlot (s : State) (slot : BitVec 2) (k : Answer) : Answer :=
  if slot.toNat < s.cfg.fbSlots then k else .refused (.reservedWord .slot)

/-- A function outside its domain is not defined (93_implementation_defined.md U19). -/
def whenInDomain (p : Prop) [Decidable p] (k : Answer) : Answer := if p then k else .refused .outOfDomain

end Sys2Proof.Machine
end

