-- ==== Sys2Proof/Machine/DmaMux.lean ====
section
/-! DEFINITION. The DMA source multiplexer and the transfer chain: ADDR, RELOAD_SOURCE, ARM, STREAM, LINE_END (42_dma_mux.md). -/

namespace Sys2Proof.Machine

/-- ADDR(b) as a function on its own (42_dma_mux.md rule R135). -/
def execAddr (b : BufId) (s : State) : Answer := .next (giveResult (.pointer (addr s.cfg b)) s)

/-- RELOAD_SOURCE b (42_dma_mux.md rule R136): `src_ptr <- ADDR(b)`, armed or not. -/
def execReloadSource (b : BufId) (s : State) : Answer := whenFaultFree s (.next (publish b s))

/-- ARM b (42_dma_mux.md rule R137). The boot obligations are the software's: "the block checks none of them"
(70_reset_and_hazards.md rule R237). -/
def execArm (b : BufId) (s : State) : Answer :=
  whenFaultFree s <| whenEnabled (s.dmaArmed = false) .alreadyArmed <|
    .next (setArmed (loadChain (addr s.cfg b) s))

/-- The byte address STREAM reads: `dma_base + 4 * dma_cnt` (42_dma_mux.md rule R138). -/
def streamAddr (s : State) : Nat := s.dmaBase.toNat + 4 * s.dmaCnt

/-- STREAM (42_dma_mux.md rule R138). -/
def execStream (s : State) : Answer :=
  whenFaultFree s <| whenEnabled (s.dmaArmed = true) .notArmed <| whenEnabled (s.dmaCnt < s.cfg.lineWords) .lineComplete <|
    if wordMapped s.cfg (streamAddr s) then
      match lineWord s (streamAddr s) with
      | some w => .next (emitWord w s)
      | none => .next (raiseFault (.uninitLine (streamAddr s)) s)
    else .fault (.noLineBuffer (streamAddr s))

/-- LINE_END (42_dma_mux.md rule R139). -/
def execLineEnd (s : State) : Answer :=
  whenFaultFree s <| whenEnabled (s.dmaArmed = true) .notArmed <| whenEnabled (s.dmaCnt = s.cfg.lineWords) .lineIncomplete <|
    .next (raiseIrq (loadChain s.srcPtr s))

end Sys2Proof.Machine
end

