-- ==== Sys2Proof/Machine/HostRotation.lean ====
section
/-! DEFINITION. Frame buffers and the rotation protocol: FB_WRITE, ACQ_WRITE, ACQ_DISPLAY, CLEAR_BUFFERS, SET_BUFFERING
(44_host_rotation.md). -/

namespace Sys2Proof.Machine

/-- FB_WRITE s, o, v (44_host_rotation.md rule R182). -/
def execFbWrite (slot : BitVec 2) (off : BitVec 15) (val : Byte) (s : State) : Answer :=
  whenSlot s slot <| whenFaultFree s <| .next (storeFb slot off.toNat [val] s)

/-- The rotation decides the slot: buffering is on and there is more than one slot. With one slot "the rotation registers exist
but are never used" (44_host_rotation.md rule R191), whatever the mode bit. DEDUCED, unsafe (log 16). -/
def rotating (s : State) : Bool := s.bufferingMode && decide (s.cfg.fbSlots ≠ 1)

/-- The producer moves to slot k and gets it. -/
def claimSlot (k : Fin 3) (s : State) : State := giveResult (.slot (slotCode k)) (setIn k s)

/-- ACQ_WRITE with the rotation in use (44_host_rotation.md rule R183). -/
def acquireForWrite (s : State) : State :=
  let t := setReady s.inIndex false s
  if t.ready.get (s.inIndex + 1) then claimSlot (s.inIndex + 1) t
  else if t.ready.get (s.inIndex + 2) then claimSlot (s.inIndex + 2) t
  else giveResult (.slot noSlotCode) t

/-- ACQ_WRITE (44_host_rotation.md rules R183, R191); where the rotation is not in use it returns slot 0 and changes nothing. -/
def execAcqWrite (s : State) : Answer :=
  whenFaultFree s <|
    if rotating s then .next (acquireForWrite s) else .next (giveResult (.slot (slotCode 0)) s)

/-- The display side leaves its slot, marked ready, for slot k and gets it. -/
def showSlot (k : Fin 3) (s : State) : State :=
  giveResult (.slot (slotCode k)) (setOut k (setReady s.outIndex true s))

/-- ACQ_DISPLAY with the rotation in use (44_host_rotation.md rule R184). -/
def acquireForDisplay (s : State) : State :=
  if s.firstFrame then giveResult (.slot (slotCode 0)) (closeFirstFrame s)
  else if s.ready.get (s.outIndex + 1) = false then showSlot (s.outIndex + 1) s
  else if s.ready.get (s.outIndex + 2) = false then showSlot (s.outIndex + 2) s
  else giveResult (.slot (slotCode s.outIndex)) s

/-- ACQ_DISPLAY (44_host_rotation.md rules R184, R191); where the rotation is not in use it returns slot 0 and changes nothing. -/
def execAcqDisplay (s : State) : Answer :=
  whenFaultFree s <|
    if rotating s then .next (acquireForDisplay s) else .next (giveResult (.slot (slotCode 0)) s)

/-- Every byte of every frame-buffer slot <- 0. -/
def zeroFb (s : State) : State := storeFb 0 0 (List.replicate (s.cfg.fbSlots * fbBytes) 0) s

/-- CLEAR_BUFFERS (44_host_rotation.md rule R185). -/
def execClearBuffers (s : State) : Answer := whenFaultFree s (.next (clearRotation (zeroFb s)))

/-- SET_BUFFERING e (44_host_rotation.md rule R186): refused to turn buffering on where there is one slot. -/
def execSetBuffering (en : Bool) (s : State) : Answer :=
  whenFaultFree s <|
    if en = true ∧ s.cfg.fbSlots = 1 then .refused .oneSlotOnly else .next (setBufferingMode en s)

end Sys2Proof.Machine
end

