-- ==== Sys2Proof/Machine/LineBuffers.lean ====
section
/-! DEFINITION. Line-buffer content: PLAIN_LINE, VSYNC_LINE, TPL_BUILD, REBUILD_ROW with its micro-steps, REBUILD
(43_line_buffers.md). -/

namespace Sys2Proof.Machine

/-- PLAIN_LINE(k) as a function on its own (43_line_buffers.md rule R161). -/
def execPlainLine (k : Nat) (s : State) : Answer :=
  whenInDomain (k < s.cfg.lineSamples) (.next (giveResult (.sample (plainLine s.cfg k)) s))

/-- VSYNC_LINE(k) as a function on its own (43_line_buffers.md rule R162). -/
def execVsyncLine (k : Nat) (s : State) : Answer :=
  whenInDomain (k < s.cfg.lineSamples) (.next (giveResult (.sample (vsyncLine s.cfg k)) s))

/-- The samples of template TPL(t) (43_line_buffers.md rule R163). -/
def tplContent (c : Config) (t : BitVec 2) : List Byte := (List.range c.lineSamples).map (tplSample c t)

/-- Writing one template. -/
def buildTpl (t : BitVec 2) (s : State) : State := storeLine (addr s.cfg (.tpl t)).toNat (tplContent s.cfg t) s

/-- TPL_BUILD (43_line_buffers.md rule R163): the four templates, whatever they held. -/
def execTplBuild (s : State) : Answer :=
  whenFaultFree s (.next (buildTpl 3 (buildTpl 2 (buildTpl 1 (buildTpl 0 s)))))

/-- The number of micro-steps of REBUILD_ROW (43_line_buffers.md rule R166). -/
def rebuildSteps (c : Config) : Nat := c.lineSamples + fbStride

/-- Byte address of sample k of prepared line r (20_memory.md rule R43). -/
def prepSample (c : Config) (row : Byte) (k : Nat) : Nat := (addr c (.prep row)).toNat + k

/-- `rb` when micro-step m is the next: none after the last (43_line_buffers.md rule R166). -/
def rebuildMark (c : Config) (slot : BitVec 2) (row : Byte) (m : Nat) : Option Rebuild :=
  if m < rebuildSteps c then some ⟨slot, row, m⟩ else none

/-- Micro-step m of REBUILD_ROW slot, row (43_line_buffers.md rules R165, R166): stamp m of the plain pattern, or the palette
store of column `m - LINE_SAMPLES`. At a fault `rb` still names the micro-step that raised it (log 10). -/
def rebuildAccess (slot : BitVec 2) (row : Byte) (m : Nat) (s : State) : State :=
  if m < s.cfg.lineSamples then
    setRb (rebuildMark s.cfg slot row (m + 1)) (storeLine (prepSample s.cfg row m) [plainLine s.cfg m] s)
  else
    let col := m - s.cfg.lineSamples
    match fbByte s slot (fbOffset row col) with
    | some b =>
      setRb (rebuildMark s.cfg slot row (m + 1))
        (storeLine (prepSample s.cfg row (s.cfg.activeStart + 2 * col)) (palBytes (palEntry s b)) s)
    | none => raiseFault (.uninitFb slot row col) (setRb (some ⟨slot, row, m⟩) s)

/-- The values before the first absent one. -/
def present {α : Type} : List (Option α) → List α
  | some v :: rest => v :: present rest
  | _ => []

/-- The stamps of REBUILD_ROW from micro-step m on, performed together. -/
def restStamps (row : Byte) (m : Nat) (s : State) : State :=
  storeLine (prepSample s.cfg row m) (((List.range s.cfg.lineSamples).drop m).map (plainLine s.cfg)) s

/-- The palette stores of REBUILD_ROW from column `col` on, performed together, up to the first frame-buffer byte nothing has
written. -/
def restColumns (slot : BitVec 2) (row : Byte) (col : Nat) (s : State) : State :=
  let bytes := present ((fbRow s slot row).drop col)
  let t := storeLine (prepSample s.cfg row (s.cfg.activeStart + 2 * col)) (bytes.flatMap fun b => palBytes (palEntry s b)) s
  if col + bytes.length < fbStride then
    raiseFault (.uninitFb slot row (col + bytes.length)) (setRb (some ⟨slot, row, s.cfg.lineSamples + (col + bytes.length)⟩) t)
  else setRb none t

/-- REBUILD_ROW from micro-step m to its end with no other agent's step between (43_line_buffers.md rule R165). -/
def rebuildRest (slot : BitVec 2) (row : Byte) (m : Nat) (s : State) : State :=
  restColumns slot row (m - s.cfg.lineSamples) (restStamps row m s)

/-- The micro-step at which REBUILD_ROW slot, row goes on: 0 if no rebuild is in progress, its next one if it is itself in
progress, none if another is. -/
def rebuildFrom (s : State) (slot : BitVec 2) (row : Byte) : Option Nat :=
  match s.rb with
  | none => some 0
  | some r => if r.slot = slot ∧ r.row = row then some r.next else none

/-- REBUILD_ROW s, r (43_line_buffers.md rule R165), its remaining micro-steps to the end (log 9). -/
def execRebuildRow (slot : BitVec 2) (row : Byte) (s : State) : Answer :=
  whenSlot s slot <| whenFaultFree s <|
    match rebuildFrom s slot row with
    | some m => .next (rebuildRest slot row m s)
    | none => .refused (.notEnabled .rebuildInProgress)

/-- One micro-step of REBUILD_ROW s, r (43_line_buffers.md rule R166). -/
def rebuildMicro (slot : BitVec 2) (row : Byte) (s : State) : Answer :=
  whenSlot s slot <| whenFaultFree s <|
    match rebuildFrom s slot row with
    | some m => .next (rebuildAccess slot row m s)
    | none => .refused (.notEnabled .rebuildInProgress)

/-- REBUILD_ROW s, r for each row of a list, up to the first fault. -/
def rebuildRows (slot : BitVec 2) : List Byte → State → State
  | [], s => s
  | r :: rest, s =>
    let t := rebuildRest slot r 0 s
    if t.fault = none then rebuildRows slot rest t else t

/-- REBUILD s (43_line_buffers.md rule R167): rows 0 to 255 in increasing order. -/
def execRebuild (slot : BitVec 2) (s : State) : Answer :=
  whenSlot s slot <| whenFaultFree s <| whenEnabled (s.rb = none) .rebuildInProgress <|
    .next (rebuildRows slot allRows s)

end Sys2Proof.Machine
end

