-- ==== Sys2Proof/Machine/Palette.lean ====
section
/-! DEFINITION. The palette table: LANE, PAL_BUILD, PAL_READ (41_palette.md). -/

namespace Sys2Proof.Machine

/-- LANE(n) as a function on its own (41_palette.md rule R122). -/
def execLane (n : BitVec 4) (s : State) : Answer := .next (giveResult (.sample (lane s.cfg n)) s)

/-- The content PAL_BUILD gives the table, in index order (41_palette.md rule R123). -/
def palContent (c : Config) : List PalWord := (List.range palEntries).map fun i => palWord c (BitVec.ofNat 8 i)

/-- PAL_BUILD (41_palette.md rule R123): writes all 256 entries, whatever they held. -/
def execPalBuild (s : State) : Answer := whenFaultFree s (.next (storePal (palContent s.cfg) s))

/-- PAL_READ idx (41_palette.md rule R125): returns PAL[idx] and changes nothing else. -/
def execPalRead (idx : Byte) (s : State) : Answer :=
  whenFaultFree s (.next (giveResult (.palette (palEntry s idx)) s))

end Sys2Proof.Machine
end

