-- ==== Sys2Proof/Machine/Reset.lean ====
section
/-! DEFINITION. RESET (70_reset_and_hazards.md). -/

namespace Sys2Proof.Machine

/-- Every field at its reset value, but for `dma_base`, left unspecified and so a free value, and the fields that are not the
block's: the configuration, which no operation writes (00_scope.md rule R2), and the schedule (logs 5, 24). -/
def resetBlock (s : State) : State :=
  { State.resetOf s.config with dmaBase := Config.freeBase s.draws, draws := s.draws + 1, schedule := s.schedule }

/-- RESET (70_reset_and_hazards.md rule R230): enabled in every state, a faulted one too. -/
def execReset (s : State) : Answer := .next (resetBlock s)

end Sys2Proof.Machine
end

