-- ==== Sys2Proof/Machine/Scanout.lean ====
section
/-! DEFINITION. The scanline state machine: CLASSIFY, SELECT, NEXT_Y, STEP (40_scanout.md). -/

namespace Sys2Proof.Machine

/-- CLASSIFY(y) as a function on its own (40_scanout.md rule R100). -/
def execClassify (y : Nat) (s : State) : Answer :=
  whenInDomain (y < s.cfg.wholeFrame) (.next (giveResult (.region (classify s.cfg y)) s))

/-- SELECT(y) as a function on its own (40_scanout.md rule R102). -/
def execSelect (y : Nat) (s : State) : Answer :=
  whenInDomain (y < s.cfg.wholeFrame) (.next (giveResult (.buffer (select s.cfg y)) s))

/-- NEXT_Y(y) as a function on its own (40_scanout.md rule R103). -/
def execNextY (y : Nat) (s : State) : Answer :=
  whenInDomain (y < s.cfg.wholeFrame) (.next (giveResult (.scanline (nextY s.cfg y)) s))

/-- STEP, the interrupt handler (40_scanout.md rule R104): specified for `divider = 1` only (rule R106), enabled while the
interrupt is pending. -/
def execStep (s : State) : Answer :=
  whenFaultFree s <| whenEnabled (s.irqPending = true) .noInterrupt <|
    if s.cfg.divider = 1 then whenInDomain (s.y < s.cfg.wholeFrame) (.next (handleLine s))
    else .refused .dividerNotOne

end Sys2Proof.Machine
end

