-- ==== Sys2Proof/Machine/Dispatch.lean ====
section
/-! DEFINITION. The meaning of every operation, one arm per row of spec/opcode_table.json. -/

namespace Sys2Proof.Machine

def exec (i : Instr) (s : State) : Host.Outcome State Fault Refusal :=
  match i with
  | .reset => Sys2Proof.Machine.execReset s
  | .arm b => Sys2Proof.Machine.execArm b s
  | .stream => Sys2Proof.Machine.execStream s
  | .lineEnd => Sys2Proof.Machine.execLineEnd s
  | .step => Sys2Proof.Machine.execStep s
  | .palRead idx => Sys2Proof.Machine.execPalRead idx s
  | .palBuild => Sys2Proof.Machine.execPalBuild s
  | .tplBuild => Sys2Proof.Machine.execTplBuild s
  | .rebuildRow slot row => Sys2Proof.Machine.execRebuildRow slot row s
  | .rebuild slot => Sys2Proof.Machine.execRebuild slot s
  | .fbWrite slot off val => Sys2Proof.Machine.execFbWrite slot off val s
  | .acqWrite => Sys2Proof.Machine.execAcqWrite s
  | .acqDisplay => Sys2Proof.Machine.execAcqDisplay s
  | .clearBuffers => Sys2Proof.Machine.execClearBuffers s
  | .setBuffering en => Sys2Proof.Machine.execSetBuffering en s
  | .reloadSource b => Sys2Proof.Machine.execReloadSource b s
  | .classify y => Sys2Proof.Machine.execClassify y s
  | .select y => Sys2Proof.Machine.execSelect y s
  | .nextY y => Sys2Proof.Machine.execNextY y s
  | .lane n => Sys2Proof.Machine.execLane n s
  | .addr b => Sys2Proof.Machine.execAddr b s
  | .plainLine k => Sys2Proof.Machine.execPlainLine k s
  | .vsyncLine k => Sys2Proof.Machine.execVsyncLine k s

end Sys2Proof.Machine
end

