-- ==== Sys2Proof/Machine/Turns.lean ====
section
/-! DEFINITION. One turn of the schedule: decoding an event word and performing it, one micro-step of a rebuild, and passing the
turn of an agent that is not enabled; the pseudo-operations as lists of operations (30_encoding.md rule R86). -/

namespace Sys2Proof.Machine

/-- The operation an event word spells; a reserved word is refused (30_encoding.md rule R83). -/
def performEvent (w : Word) (s : State) : Answer :=
  match decode w with
  | .error why => .refused (.reservedWord why)
  | .ok i => if i.wf s.cfg then exec i s else .refused (.reservedWord .slot)

/-- What a turn does, before an agent that is not enabled is passed over. -/
def attemptTurn (t : Turn) (s : State) : Answer :=
  match t with
  | .event w => performEvent w s
  | .micro slot row => rebuildMicro slot row s

/-- An agent that is not enabled takes no step and the others go on (93_implementation_defined.md U13, U14, log 3). -/
def passIfBlocked (s : State) : Answer → Answer
  | .refused (.notEnabled _) => .next s
  | .refused r => .refused r
  | .fault f => .fault f
  | .next t => .next t

/-- One turn. -/
def performTurn (t : Turn) (s : State) : Answer := passIfBlocked s (attemptTurn t s)

/-- One step of the machine: the first turn of the schedule; with no turn placed nothing happens (log 2). -/
def nextTurn (s : State) : Answer :=
  match s.schedule with
  | [] => .next s
  | t :: _ => performTurn t (popTurn s)

/-- LINE: STREAM × LINE_WORDS, then LINE_END (30_encoding.md rule R86). -/
def pseudoLine (c : Config) : List Instr := List.replicate c.lineWords .stream ++ [.lineEnd]

/-- TICK: LINE, then STEP (R86). -/
def pseudoTick (c : Config) : List Instr := pseudoLine c ++ [.step]

/-- FRAME: TICK × whole_frame (R86). -/
def pseudoFrame (c : Config) : List Instr := (List.replicate c.wholeFrame (pseudoTick c)).flatten

/-- REBUILD s as its expansion (R86). -/
def pseudoRebuild (slot : BitVec 2) : List Instr := allRows.map fun r => .rebuildRow slot r

/-- BOOT (R86, 70_reset_and_hazards.md rule R236). -/
def pseudoBoot (c : Config) : List Instr :=
  [.reset, .palBuild, .tplBuild, .clearBuffers, .rebuild 0, .arm c.initBuf]

/-- Operations performed one after the other, up to the first that does not answer a next state. -/
def execAll : List Instr → State → Answer
  | [], s => .next s
  | i :: rest, s =>
    match exec i s with
    | .next t => execAll rest t
    | .fault f => .fault f
    | .refused r => .refused r

/-- The turns that perform a list of operations; a pure function has no event word and so no turn. -/
def turnsOf (is : List Instr) : List Turn := is.filterMap fun i => (encode i).map .event

/-- The turns of REBUILD_ROW slot, row taken one micro-step at a time (43_line_buffers.md rule R166). -/
def microTurns (c : Config) (slot : BitVec 2) (row : Byte) : List Turn := List.replicate (rebuildSteps c) (.micro slot row)

end Sys2Proof.Machine
end

