-- ==== Sys2Proof/Machine/Step.lean ====
section
/-! DEFINITION. One step of the machine, and placing an event word so that the next step performs it. -/

namespace Sys2Proof.Machine

/-- One step of the machine: the first turn of the schedule (20_memory.md rule R54: a run is one interleaving of the agents'
steps). -/
def step (s : State) : Host.Outcome State Fault Refusal := nextTurn s

/-- The state with an event word placed as the next turn. The block fetches no program: its operations are performed from
outside (30_encoding.md rule R81, log 2). An event word is 32 bits, so every table row's bits are the whole word (R84). -/
def State.withFetchWord (s : State) (_nbits w : Nat) : State := placeTurn (.event (BitVec.ofNat 32 w)) s

end Sys2Proof.Machine
end

