-- ==== Sys2Proof/Machine/Observe.lean ====
section
/-! DEFINITION. What can be read off a state for claims: the combinational outputs, the samples on the wire, a line period of the
output history, a pixel of a frame buffer. No rule of the machine depends on any of them. -/

namespace Sys2Proof.Machine

/-- The output `region` (10_state.md rule R12). -/
def State.region (s : State) : BitVec 2 := (classify s.cfg s.y).code

/-- The output `sel`, the select input of the multiplexer (10_state.md rule R13). -/
def State.sel (s : State) : BitVec 9 := (select s.cfg s.y).sel

/-- The four samples of a scanline word in the order they are put on the wire: bits 7:0 first (20_memory.md rule R44). -/
def wireSamples (w : Word) : List Byte := [w.extractLsb' 0 8, w.extractLsb' 8 8, w.extractLsb' 16 8, w.extractLsb' 24 8]

/-- Line period k of the output history (10_state.md rule R27). -/
def linePeriod (s : State) (k : Nat) : List Word := (s.outStream.drop (k * s.cfg.lineWords)).take s.cfg.lineWords

/-- Scanline word w of line buffer b, where it has been written (20_memory.md rule R43). -/
def bufWord (s : State) (b : BufId) (w : Nat) : Option Word := lineWord s ((addr s.cfg b).toNat + 4 * w)

/-- Sample k of line buffer b, where it has been written (20_memory.md rule R43). -/
def bufSample (s : State) (b : BufId) (k : Nat) : Option Byte := lineByte s ((addr s.cfg b).toNat + k)

/-- PIX(s, x, r): pixel x of row r of a slot, an RGBI nibble (30_encoding.md rule R71). -/
def pixel (s : State) (slot : BitVec 2) (x : Nat) (row : Byte) : Option (BitVec 4) :=
  (fbByte s slot (fbOffset row (x / 2))).map fun b => if x % 2 = 0 then leftPixel b else rightPixel b

/-- The intensity bit of an RGBI nibble (30_encoding.md rule R70). -/
def intensityBit (n : BitVec 4) : Bool := n.getLsbD 3

/-- The red bit of an RGBI nibble (R70). -/
def redBit (n : BitVec 4) : Bool := n.getLsbD 2

/-- The green bit of an RGBI nibble (R70). -/
def greenBit (n : BitVec 4) : Bool := n.getLsbD 1

/-- The blue bit of an RGBI nibble (R70). -/
def blueBit (n : BitVec 4) : Bool := n.getLsbD 0

end Sys2Proof.Machine
end

