-- ==== Sys2Proof/Safety.lean ====
section
/-! DEFINITION. The terms claims use: the invariant every step keeps, when a line buffer can be streamed, the boot obligations,
the reset values, and the states of the rotation protocol. -/

namespace Sys2Proof

open Sys2Proof.Machine

/-- A state with no model fault (60_exceptions.md rule R200). -/
def Safe (s : State) : Prop := s.fault = none

/-- The three memories are in canonical form. -/
def CanonicalMemory (s : State) : Prop :=
  Memory.wf (palInitial s.cfg) s.pal = true ∧ Memory.wf (lineInitial s.cfg) s.line = true ∧ Memory.wf fbInitial s.fb = true

/-- PAL holds the content of 41_palette.md rule R123. -/
def PaletteBuilt (s : State) : Prop := ∀ i : Byte, palEntry s i = palWord s.cfg i

/-- The four templates hold the content of 43_line_buffers.md rule R163. -/
def TemplatesBuilt (s : State) : Prop :=
  ∀ t : BitVec 2, ∀ k, k < s.cfg.lineSamples → bufSample s (.tpl t) k = some (tplSample s.cfg t k)

/-- A pointer register holds the address of a line buffer (30_encoding.md rule R79). -/
def IsBufAddr (c : Config) (p : Word) : Prop := ∃ b, p = addr c b

/-- `src_ptr = ADDR(SELECT(y))` (10_state.md rule R26). -/
def PointerFollowsY (s : State) : Prop := s.srcPtr = addr s.cfg (select s.cfg s.y)

/-- The ranges and relations the spec gives the registers, the canonical form and the ROM content of the memories. -/
structure Inv (s : State) : Prop where
  /-- 10_state.md rule R11. -/
  yRange : s.y < s.cfg.wholeFrame
  /-- 10_state.md rule R18. -/
  cntRange : s.dmaCnt ≤ s.cfg.lineWords
  /-- 30_encoding.md rule R79. -/
  srcIsBuf : IsBufAddr s.cfg s.srcPtr
  /-- 30_encoding.md rule R79; before ARM `dma_base` is unspecified (10_state.md rule R17). -/
  baseIsBuf : s.dmaArmed = true → IsBufAddr s.cfg s.dmaBase
  /-- No interrupt before the first LINE_END (40_scanout.md rule R104, corner case c). -/
  irqArmed : s.irqPending = true → s.dmaArmed = true
  /-- 10_state.md rule R31, 43_line_buffers.md rule R166. -/
  rbRange : ∀ r, s.rb = some r → r.next < rebuildSteps s.cfg ∧ r.slot.toNat < s.cfg.fbSlots
  /-- With one slot no operation turns buffering on: it is on only where the configuration has it on from reset
  (44_host_rotation.md rule R186, 10_state.md rule R28). -/
  oneSlotKept : s.cfg.fbSlots = 1 → s.bufferingMode = true → s.cfg.bufferingInit = true
  canonical : CanonicalMemory s
  /-- 41_palette.md rule R127. -/
  palette : PaletteBuilt s
  /-- 43_line_buffers.md rule R163: templates "never change after TPL_BUILD". -/
  templates : TemplatesBuilt s

/-- Every byte of a line buffer has been written. -/
def LineReady (s : State) (b : BufId) : Prop := ∀ k, k < s.cfg.lineBytes → (bufSample s b k).isSome = true

/-- The boot obligations (a), (b), (c) of 70_reset_and_hazards.md rule R237; (d), the configuration, holds by its type. -/
def BootReady (s : State) : Prop :=
  PaletteBuilt s ∧ TemplatesBuilt s ∧ ∀ r : Byte, r.toNat < s.cfg.vVisible → LineReady s (.prep r)

/-- The buffers the chain streams and will stream next have been written, and so has every line a STEP can publish. -/
def StreamReady (s : State) : Prop :=
  Inv s ∧ BootReady s ∧ (∃ b, s.srcPtr = addr s.cfg b ∧ LineReady s b) ∧
    (s.dmaArmed = true → ∃ b, s.dmaBase = addr s.cfg b ∧ LineReady s b)

/-- Every register at the value 10_state.md rule R28 gives it at reset, and the memories at their reset content. `dma_base` is
unspecified there and not mentioned here. -/
structure IsReset (s : State) : Prop where
  y : s.y = 0
  srcPtr : s.srcPtr = addr s.cfg (select s.cfg 0)
  irqPending : s.irqPending = false
  dmaArmed : s.dmaArmed = false
  dmaCnt : s.dmaCnt = 0
  inIndex : s.inIndex = 0
  outIndex : s.outIndex = 0
  ready : ∀ k, s.ready.get k = false
  firstFrame : s.firstFrame = true
  bufferingMode : s.bufferingMode = s.cfg.bufferingInit
  rb : s.rb = none
  fault : s.fault = none
  outStream : s.outStream = []
  /-- PAL its constructed content (41_palette.md rule R123). -/
  palette : PaletteBuilt s
  /-- The templates their constructed content (43_line_buffers.md rule R163). -/
  templates : TemplatesBuilt s
  /-- PREP line buffers unwritten. -/
  prepared : ∀ r : Byte, ∀ k, k < s.cfg.lineBytes → bufSample s (.prep r) k = none
  /-- FB slots unwritten. -/
  frames : ∀ slot off, fbByte s slot off = none

/-- The states that calls of the two acquire operations reach from the cleared state, other operations coming between them, with
the slot code the latest ACQ_WRITE returned, code 3 before the first (44_host_rotation.md rule R187). "With buffering disabled or
`FB_SLOTS = 1` nothing secures it" (70_reset_and_hazards.md rule R242), so buffering is on and there is more than one slot. -/
inductive Rotated : State → BitVec 2 → Prop where
  | cleared (s : State) (hb : s.bufferingMode = true) (hn : s.cfg.fbSlots ≠ 1) (hi : s.inIndex = 0) (ho : s.outIndex = 0)
      (hr : s.ready = Ready.clear) (hf : s.firstFrame = true) : Rotated s noSlotCode
  | write (s t : State) (latest code : BitVec 2) (hs : Rotated s latest) (he : exec .acqWrite s = .next t)
      (hc : t.result = some (.slot code)) : Rotated t code
  | display (s t : State) (latest : BitVec 2) (hs : Rotated s latest) (he : exec .acqDisplay s = .next t) : Rotated t latest
  | other (s t : State) (latest : BitVec 2) (i : Instr) (hs : Rotated s latest)
      (hi : i ≠ .acqWrite ∧ i ≠ .acqDisplay ∧ i ≠ .clearBuffers ∧ i ≠ .reset ∧ ∀ e, i ≠ .setBuffering e)
      (he : exec i s = .next t) : Rotated t latest

end Sys2Proof
end

