-- ==== Sys2Proof/Certificates/Slice0/Obligations.lean ====
section
/-! DEFINITION. The statements for the provers, each with the rules of spec/ it formalises. A statement about a configuration or
a state holds for every value of the open parameters and of the free values. -/

open Sys2Proof Sys2Proof.Machine

/-! ### Reset -/

/-- 10_state.md rule R28, 70_reset_and_hazards.md rule R230: RESET is enabled in every state and leaves every register and memory
at its reset value; the configuration keeps its configured value. Of `dma_base`, unspecified, nothing is said. -/
def Obligations.ResetOperationGivesResetValues : Prop :=
  ∀ s : State, ∃ t, exec .reset s = .next t ∧ IsReset t ∧ t.config = s.config

/-- 10_state.md rule R28 for the model's own state after reset, under every configuration. The model's choices: `State.reset` is
the one of the reference configuration (log 1), and the operation RESET leaves the schedule, which is not the block's, as it is
(log 24). -/
def Obligations.ResetStateHasResetValues : Prop :=
  (∀ c : WfConfig, IsReset (State.resetOf c) ∧ (State.resetOf c).config = c) ∧ State.reset = State.resetOf WfConfig.ref ∧
  ∀ s t : State, exec .reset s = .next t → t.schedule = s.schedule

/-! ### Event words -/

/-- 30_encoding.md rules R81, R82: decoding the event word of an operation whose operands are in range gives the operation back.
-/
def Obligations.DecodeOfEncodeIsIdentity : Prop :=
  ∀ (c : Config) (i : Instr) (w : Word), c.WellFormed → i.wf c = true → encode i = some w → decode w = .ok i

/-- 30_encoding.md rules R81, R82: an event word that spells an operation is that operation's event word. -/
def Obligations.EncodeOfDecodeIsIdentity : Prop :=
  ∀ (w : Word) (i : Instr), decode w = .ok i → encode i = some w

/-- Event words written out in 95_test_vectors.md, decoded. -/
def Obligations.SpecWordsDecode : Prop :=
  decode 0x00000000 = .ok .reset ∧ decode 0x10000102 = .ok (.arm (.tpl 2)) ∧ decode 0x10000003 = .ok (.arm (.prep 3)) ∧
  decode 0x20000000 = .ok .stream ∧ decode 0x30000000 = .ok .lineEnd ∧ decode 0x40000000 = .ok .step ∧
  decode 0x500000F7 = .ok (.palRead 0xF7) ∧ decode 0x60000000 = .ok .palBuild ∧ decode 0x70000000 = .ok .tplBuild ∧
  decode 0x80000003 = .ok (.rebuildRow 0 3) ∧ decode 0x90000000 = .ok (.rebuild 0) ∧
  decode 0xA00180F7 = .ok (.fbWrite 0 0x0180 0xF7) ∧ decode 0xA27FFFFF = .ok (.fbWrite 2 0x7FFF 0xFF) ∧
  decode 0xB0000000 = .ok .acqWrite ∧ decode 0xC0000000 = .ok .acqDisplay ∧ decode 0xD0000000 = .ok .clearBuffers ∧
  decode 0xE0000001 = .ok (.setBuffering true) ∧ decode 0xF0000101 = .ok (.reloadSource (.tpl 1)) ∧
  decode 0x10000104 = .error .selector ∧ decode 0x83000000 = .error .slot

/-- 30_encoding.md rule R83: a word is reserved exactly when a bit outside its operation's fields is set, its slot is 3 (in
REBUILD_ROW, REBUILD, FB_WRITE) or its selector is reserved (in ARM, RELOAD_SOURCE); the step refuses a reserved word, and a word
whose slot the configuration does not have. -/
def Obligations.ReservedWordsAreRefused : Prop :=
  ∀ w : Word,
    (w &&& (opRow (fieldOp w)).mask ≠ (opRow (fieldOp w)).pattern → decode w = .error .bits) ∧
    (w &&& (opRow (fieldOp w)).mask = (opRow (fieldOp w)).pattern →
      ((fieldOp w = 0x8 ∨ fieldOp w = 0x9 ∨ fieldOp w = 0xA) → w.extractLsb' 24 2 = 3 → decode w = .error .slot) ∧
      ((fieldOp w = 0x1 ∨ fieldOp w = 0xF) → w.extractLsb' 8 1 = 1 → w.extractLsb' 2 6 ≠ 0 → decode w = .error .selector) ∧
      (¬ ((fieldOp w = 0x8 ∨ fieldOp w = 0x9 ∨ fieldOp w = 0xA) ∧ w.extractLsb' 24 2 = 3) →
        ¬ ((fieldOp w = 0x1 ∨ fieldOp w = 0xF) ∧ w.extractLsb' 8 1 = 1 ∧ w.extractLsb' 2 6 ≠ 0) →
        ∃ i, decode w = .ok i)) ∧
    (∀ (s : State) (ts : List Turn), s.schedule = .event w :: ts →
      (∀ why, decode w = .error why → step s = .refused (.reservedWord why)) ∧
      ∀ i, decode w = .ok i → i.wf s.cfg = false → step s = .refused (.reservedWord .slot)) ∧
    ∀ (s : State) (slot : BitVec 2) (row : Byte) (off : BitVec 15) (val : Byte), s.cfg.fbSlots ≤ slot.toNat →
      exec (.rebuildRow slot row) s = .refused (.reservedWord .slot) ∧ exec (.rebuild slot) s = .refused (.reservedWord .slot) ∧
      exec (.fbWrite slot off val) s = .refused (.reservedWord .slot)

/-- 30_encoding.md rule R82: no event word matches the patterns of two rows of the opcode map. -/
def Obligations.OneOpcodeRowMatches : Prop :=
  ∀ (w : Word) (p q : BitVec 4), w &&& (opRow p).mask = (opRow p).pattern → w &&& (opRow q).mask = (opRow q).pattern → p = q

/-- 30_encoding.md rules R76, R77: the region codes, the selector of every buffer, and the selectors that name none. -/
def Obligations.SelectorAndRegionCodes : Prop :=
  Region.code .visible = 0b00 ∧ Region.code .frontPorch = 0b01 ∧ Region.code .vsync = 0b10 ∧ Region.code .backPorch = 0b11 ∧
  (∀ r : Byte, (BufId.prep r).sel.toNat = r.toNat) ∧ (∀ k : BitVec 2, (BufId.tpl k).sel.toNat = 256 + k.toNat) ∧
  (∀ b, bufOfSel b.sel = some b) ∧
  ∀ sel : BitVec 9, bufOfSel sel = none ↔ sel.extractLsb' 8 1 = 1 ∧ sel.extractLsb' 2 6 ≠ 0

/-! ### The step -/

/-- A step runs the decoded operation: where the first turn is an event word that decodes to an operation with operands in range,
the step is that operation's meaning on the state without the turn; an agent that is not enabled is passed over
(93_implementation_defined.md U13, log 3). -/
def Obligations.StepPerformsDecodedEvent : Prop :=
  ∀ (s : State) (w : Word) (ts : List Turn) (i : Instr), s.schedule = .event w :: ts → decode w = .ok i → i.wf s.cfg = true →
    (∀ t, exec i { s with schedule := ts } = .next t → step s = .next t) ∧
    (∀ f, exec i { s with schedule := ts } = .fault f → step s = .fault f) ∧
    (∀ why, exec i { s with schedule := ts } = .refused (.notEnabled why) → step s = .next { s with schedule := ts }) ∧
    ∀ r, (∀ why, r ≠ .notEnabled why) → exec i { s with schedule := ts } = .refused r → step s = .refused r

/-- The other turns (logs 2, 3, 9): with no turn placed nothing happens; a micro turn is one micro-step of REBUILD_ROW; placing a
word makes it the next turn. -/
def Obligations.StepOnOtherTurns : Prop :=
  ∀ s : State,
    (s.schedule = [] → step s = .next s) ∧
    (∀ slot row ts, s.schedule = .micro slot row :: ts →
      (∀ t, rebuildMicro slot row { s with schedule := ts } = .next t → step s = .next t) ∧
      ∀ why, rebuildMicro slot row { s with schedule := ts } = .refused (.notEnabled why) →
        step s = .next { s with schedule := ts }) ∧
    ∀ nbits w, s.withFetchWord nbits w = { s with schedule := .event (BitVec.ofNat 32 w) :: s.schedule }

/-! ### Invariants -/

/-- The reset state of every configuration meets the invariant. -/
def Obligations.ResetMeetsInvariant : Prop := ∀ c : WfConfig, Inv (State.resetOf c)

/-- Every step keeps the invariant: the registers stay in the ranges of 10_state.md rules R11, R18, R31 and 30_encoding.md rule
R79, the memories stay canonical, the palette and the templates keep their content. -/
def Obligations.StepKeepsInvariant : Prop := ∀ s t : State, Inv s → step s = .next t → Inv t

/-- 10_state.md rule R26: `src_ptr = ADDR(SELECT(y))` after RESET and after STEP, whatever the pointer was, and kept by every
operation and every micro-step of a rebuild but a RELOAD_SOURCE performed on its own. -/
def Obligations.PointerFollowsScanline : Prop :=
  (∀ c : WfConfig, PointerFollowsY (State.resetOf c)) ∧
  (∀ s t : State, exec .reset s = .next t → PointerFollowsY t) ∧
  (∀ s t : State, exec .step s = .next t → PointerFollowsY t) ∧
  (∀ (i : Instr) (s t : State), PointerFollowsY s → (∀ b, i ≠ .reloadSource b) → exec i s = .next t → PointerFollowsY t) ∧
  ∀ (slot : BitVec 2) (row : Byte) (s t : State), PointerFollowsY s → rebuildMicro slot row s = .next t → PointerFollowsY t

/-! ### The scanline state machine -/

/-- 40_scanout.md rule R101: on [0, whole_frame) the classifier is total and its four regions, each one range of scanlines,
partition the frame. -/
def Obligations.RegionsPartitionTheFrame : Prop :=
  ∀ (c : Config) (y : Nat), c.WellFormed → y < c.wholeFrame →
    (classify c y = .visible ↔ y < c.vVisible) ∧
    (classify c y = .frontPorch ↔ c.vVisible ≤ y ∧ y < c.vVisible + c.vFrontPorch) ∧
    (classify c y = .vsync ↔ c.vVisible + c.vFrontPorch ≤ y ∧ y < c.vVisible + c.vFrontPorch + c.vSyncPulse) ∧
    (classify c y = .backPorch ↔ c.vVisible + c.vFrontPorch + c.vSyncPulse ≤ y ∧ y < c.wholeFrame)

/-- 40_scanout.md rule R102: a visible scanline is emitted from the prepared line of its own number, a porch line from the blank
template, a vertical-sync line from the vertical-sync template. -/
def Obligations.SelectorFollowsRegion : Prop :=
  ∀ (c : Config) (y : Nat), c.WellFormed → y < c.wholeFrame →
    (classify c y = .visible → ∃ r, select c y = .prep r ∧ r.toNat = y) ∧
    (classify c y = .frontPorch → select c y = .tpl 0) ∧
    (classify c y = .vsync → select c y = .tpl 1) ∧
    (classify c y = .backPorch → select c y = .tpl 0)

/-- 40_scanout.md rule R103: the successor is (y + 1) mod whole_frame, stays in range, and the scanlines form one cycle. -/
def Obligations.ScanlinesFormOneCycle : Prop :=
  ∀ (c : Config) (y : Nat), c.WellFormed → y < c.wholeFrame →
    nextY c y = (y + 1) % c.wholeFrame ∧ nextY c y < c.wholeFrame ∧
    ∀ n, (nextY c)^[n] y = (y + n) % c.wholeFrame

/-- 40_scanout.md rules R104, R106: with a pending interrupt and no fault, STEP increments `y`, publishes the line of the new `y`,
clears the pending interrupt, and does nothing else; without a pending interrupt, or with a fault, it has no step, which is a
refusal by name (log 3); with a divider other than 1 it is refused, and so it is at a `y` out of range, which no run reaches (log
14). -/
def Obligations.StepAdvancesAndPublishes : Prop :=
  ∀ s : State,
    (s.fault = none → s.irqPending = true → s.cfg.divider = 1 → s.y < s.cfg.wholeFrame →
      exec .step s = .next { s with
        y := nextY s.cfg s.y
        srcPtr := addr s.cfg (select s.cfg (nextY s.cfg s.y))
        irqPending := false }) ∧
    (s.fault ≠ none → exec .step s = .refused (.notEnabled .faultSet)) ∧
    (s.fault = none → s.irqPending = false → exec .step s = .refused (.notEnabled .noInterrupt)) ∧
    (s.fault = none → s.irqPending = true → s.cfg.divider ≠ 1 → exec .step s = .refused .dividerNotOne) ∧
    (s.fault = none → s.irqPending = true → s.cfg.divider = 1 → s.cfg.wholeFrame ≤ s.y → exec .step s = .refused .outOfDomain)

/-- 40_scanout.md rules R100, R102, R103, 41_palette.md rule R122, 42_dma_mux.md rule R135, 43_line_buffers.md rules R161, R162:
each pure function returns its value and writes no state (the field `result` is the model's, log 6). -/
def Obligations.FunctionsReturnTheirValues : Prop :=
  ∀ s : State,
    (∀ y, y < s.cfg.wholeFrame →
      exec (.classify y) s = .next { s with result := some (.region (classify s.cfg y)) } ∧
      exec (.select y) s = .next { s with result := some (.buffer (select s.cfg y)) } ∧
      exec (.nextY y) s = .next { s with result := some (.scanline (nextY s.cfg y)) }) ∧
    (∀ n : BitVec 4, exec (.lane n) s =
      .next { s with result := some (.sample ((s.cfg.noSync ^^^ s.cfg.syncPolarity) ||| s.cfg.rgbiExpand[n.toNat])) }) ∧
    (∀ b, exec (.addr b) s = .next { s with result := some (.pointer (addr s.cfg b)) }) ∧
    ∀ k, k < s.cfg.lineSamples →
      exec (.plainLine k) s = .next { s with result := some (.sample (plainLine s.cfg k)) } ∧
      exec (.vsyncLine k) s = .next { s with result := some (.sample (vsyncLine s.cfg k)) }

/-- 93_implementation_defined.md U19: a function of the scanline state machine, or a line pattern, outside its domain is not
defined; the model refuses it (log 13). -/
def Obligations.FunctionsStopOutsideTheirDomain : Prop :=
  ∀ s : State,
    (∀ y, s.cfg.wholeFrame ≤ y → exec (.classify y) s = .refused .outOfDomain ∧ exec (.select y) s = .refused .outOfDomain ∧
      exec (.nextY y) s = .refused .outOfDomain) ∧
    ∀ k, s.cfg.lineSamples ≤ k → exec (.plainLine k) s = .refused .outOfDomain ∧ exec (.vsyncLine k) s = .refused .outOfDomain

/-! ### The palette -/

/-- 41_palette.md rule R126: after PAL_BUILD the colour fields of an entry are the expansions of the two nibbles of its index, and
both sync fields are the idle pattern. -/
def Obligations.PaletteRoundTrip : Prop :=
  ∀ s t : State, exec .palBuild s = .next t → ∀ b : Byte,
    (palEntry t b).extractLsb' 8 8 &&& t.cfg.colorMask = t.cfg.rgbiExpand[(b.extractLsb' 4 4).toNat] ∧
    (palEntry t b).extractLsb' 0 8 &&& t.cfg.colorMask = t.cfg.rgbiExpand[(b.extractLsb' 0 4).toNat] ∧
    (palEntry t b).extractLsb' 8 8 &&& t.cfg.syncMask = t.cfg.noSync ^^^ t.cfg.syncPolarity ∧
    (palEntry t b).extractLsb' 0 8 &&& t.cfg.syncMask = t.cfg.noSync ^^^ t.cfg.syncPolarity

/-- 41_palette.md rule R123: PAL_BUILD writes every entry from the two nibbles of its index, whatever the table held, and nothing
else. -/
def Obligations.PalBuildWritesTheTable : Prop :=
  ∀ s : State, s.fault = none → ∃ t, exec .palBuild s = .next t ∧ t = { s with pal := t.pal } ∧
    ∀ b : Byte, palEntry t b = lane s.cfg (b.extractLsb' 4 4) ++ lane s.cfg (b.extractLsb' 0 4)

/-- 41_palette.md rule R125: PAL_READ returns the entry of any index and changes no state of the block (a returned value stands in
the model's field `result`, log 6). -/
def Obligations.PalReadReturnsTheEntry : Prop :=
  ∀ (s : State) (idx : Byte), s.fault = none →
    exec (.palRead idx) s = .next { s with result := some (.palette (palEntry s idx)) }

/-- 41_palette.md rule R127, 43_line_buffers.md rule R163: no operation but PAL_BUILD, RESET aside, writes the palette; no
operation and no micro-step of a rebuild changes the constructed palette or templates. -/
def Obligations.RomContentIsConstant : Prop :=
  (∀ (i : Instr) (s t : State), exec i s = .next t →
    (i ≠ .palBuild → i ≠ .reset → ∀ b, palEntry t b = palEntry s b) ∧
    (PaletteBuilt s → PaletteBuilt t) ∧ (TemplatesBuilt s → TemplatesBuilt t)) ∧
  ∀ (slot : BitVec 2) (row : Byte) (s t : State), Inv s → rebuildMicro slot row s = .next t →
    (∀ b, palEntry t b = palEntry s b) ∧ TemplatesBuilt t

/-! ### The multiplexer and the transfer chain -/

/-- 42_dma_mux.md rule R137: ARM loads the initial buffer, zeroes the word count, arms the chain and leaves the rest; a second ARM
has no step, which is a refusal by name (log 3). -/
def Obligations.ArmLoadsTheChain : Prop :=
  ∀ (s : State) (b : BufId), s.fault = none →
    (s.dmaArmed = false → exec (.arm b) s = .next { s with dmaBase := addr s.cfg b, dmaCnt := 0, dmaArmed := true }) ∧
    (s.dmaArmed = true → exec (.arm b) s = .refused (.notEnabled .alreadyArmed))

/-- 42_dma_mux.md rule R138, 20_memory.md rule R43: STREAM puts out the little-endian word at `dma_base + 4 * dma_cnt` and counts
it; a byte of it that nothing has written makes it record F_UNINIT_LINE with the word's address and do nothing else (log 4); it has
no step, which is a refusal by name (log 3), before ARM, at the end of the line, or with a fault. -/
def Obligations.StreamPutsOutTheWord : Prop :=
  ∀ (s : State) (b : BufId), (s.dmaArmed = true → s.dmaBase = addr s.cfg b) →
    (s.fault = none → s.dmaArmed = true → s.dmaCnt < s.cfg.lineWords →
      (∀ b0 b1 b2 b3,
        lineByte s (s.dmaBase.toNat + 4 * s.dmaCnt) = some b0 → lineByte s (s.dmaBase.toNat + 4 * s.dmaCnt + 1) = some b1 →
        lineByte s (s.dmaBase.toNat + 4 * s.dmaCnt + 2) = some b2 → lineByte s (s.dmaBase.toNat + 4 * s.dmaCnt + 3) = some b3 →
        exec .stream s = .next { s with outStream := s.outStream ++ [b3 ++ b2 ++ b1 ++ b0], dmaCnt := s.dmaCnt + 1 }) ∧
      ((∃ j, j < 4 ∧ lineByte s (s.dmaBase.toNat + 4 * s.dmaCnt + j) = none) →
        exec .stream s = .next { s with fault := some (.uninitLine (s.dmaBase.toNat + 4 * s.dmaCnt)) })) ∧
    (s.fault ≠ none ∨ s.dmaArmed = false ∨ s.cfg.lineWords ≤ s.dmaCnt → ∃ why, exec .stream s = .refused (.notEnabled why))

/-- The model's choice (log 15; 20_memory.md rules R40, R49: no such access can arise): STREAM at a word with a byte in no line
buffer stops with a fault that names the address. -/
def Obligations.StreamOutsideTheBuffersStops : Prop :=
  ∀ s : State, s.fault = none → s.dmaArmed = true → s.dmaCnt < s.cfg.lineWords →
    (∃ j, j < 4 ∧ ∀ b, ¬ InBuf s.cfg b (s.dmaBase.toNat + 4 * s.dmaCnt + j)) →
    exec .stream s = .fault (.noLineBuffer (s.dmaBase.toNat + 4 * s.dmaCnt))

/-- Only a prepared line can hold a byte nothing has written, and so only its words fault (42_dma_mux.md rule R138, 20_memory.md
rule R59): every byte of a template holds a value in every state. -/
def Obligations.TemplatesAlwaysHoldValues : Prop :=
  ∀ (s : State) (t : BitVec 2), LineReady s (.tpl t)

/-- 42_dma_mux.md rule R139: at the end of a line LINE_END loads the published pointer, zeroes the word count, raises the interrupt
(which stays raised if it was) and changes nothing else; before ARM, within a line, or with a fault it has no step, which is a
refusal by name (log 3). -/
def Obligations.LineEndReloadsAndInterrupts : Prop :=
  ∀ s : State,
    (s.fault = none → s.dmaArmed = true → s.dmaCnt = s.cfg.lineWords →
      exec .lineEnd s = .next { s with dmaBase := s.srcPtr, dmaCnt := 0, irqPending := true }) ∧
    (s.fault ≠ none ∨ s.dmaArmed = false ∨ s.dmaCnt ≠ s.cfg.lineWords → ∃ why, exec .lineEnd s = .refused (.notEnabled why))

/-- 42_dma_mux.md rule R136: RELOAD_SOURCE writes the published pointer, armed or not, and nothing else (as an event of its own:
the model's choice, log 12). -/
def Obligations.ReloadSourcePublishes : Prop :=
  ∀ (s : State) (b : BufId), s.fault = none → exec (.reloadSource b) s = .next { s with srcPtr := addr s.cfg b }

/-- 42_dma_mux.md rules R138, R139: from the start of a line whose buffer has been written, LINE_WORDS times STREAM and one
LINE_END put out exactly the buffer's words in order, load the published pointer and raise the interrupt. -/
def Obligations.LinePeriodStreamsTheBuffer : Prop :=
  ∀ (s : State) (b : BufId), s.fault = none → s.dmaArmed = true → s.dmaCnt = 0 → s.dmaBase = addr s.cfg b → LineReady s b →
    ∃ ws : List Word, ws.length = s.cfg.lineWords ∧ (∀ k, k < s.cfg.lineWords → bufWord s b k = ws[k]?) ∧
      execAll (pseudoLine s.cfg) s =
        .next { s with outStream := s.outStream ++ ws, dmaBase := s.srcPtr, dmaCnt := 0, irqPending := true }

/-- 42_dma_mux.md rule R141: with no STEP between two LINE_ENDs the line streamed after the first is streamed again after the
second, `y` does not advance and nothing faults; the late STEP then advances `y` by one. -/
def Obligations.MissedDeadlineRepeatsTheLine : Prop :=
  ∀ (s : State) (b : BufId), s.fault = none → s.dmaArmed = true → s.dmaCnt = s.cfg.lineWords → s.srcPtr = addr s.cfg b →
    LineReady s b → s.cfg.divider = 1 → s.y < s.cfg.wholeFrame →
    ∃ ws : List Word, ws.length = s.cfg.lineWords ∧ (∀ k, k < s.cfg.lineWords → bufWord s b k = ws[k]?) ∧
      execAll (.lineEnd :: (pseudoLine s.cfg ++ pseudoLine s.cfg)) s =
        .next { s with outStream := s.outStream ++ ws ++ ws, dmaBase := s.srcPtr, dmaCnt := 0, irqPending := true } ∧
      execAll (.lineEnd :: (pseudoLine s.cfg ++ pseudoLine s.cfg ++ [.step])) s =
        .next { s with
          outStream := s.outStream ++ ws ++ ws
          dmaBase := s.srcPtr
          dmaCnt := 0
          irqPending := false
          y := nextY s.cfg s.y
          srcPtr := addr s.cfg (select s.cfg (nextY s.cfg s.y)) }

/-- 40_scanout.md rule R108: from an armed chain with every line written, `y = 0` and nothing put out yet, n TICKs put out buffer
b in line period 0 and the buffer of scanline (k - 1) mod whole_frame in line period k; afterwards `y = n mod whole_frame` and the
published pointer follows it. -/
def Obligations.SteadyStateStreamsTheFrame : Prop :=
  ∀ (s : State) (b : BufId) (n : Nat), StreamReady s → PointerFollowsY s → s.fault = none → s.cfg.divider = 1 →
    s.dmaArmed = true → s.dmaBase = addr s.cfg b → s.dmaCnt = 0 → s.y = 0 → s.outStream = [] →
    ∃ t, execAll (List.replicate n (pseudoTick s.cfg)).flatten s = .next t ∧
      t.y = n % s.cfg.wholeFrame ∧ t.srcPtr = addr s.cfg (select s.cfg (n % s.cfg.wholeFrame)) ∧
      t.outStream.length = n * s.cfg.lineWords ∧
      ∀ k w, k < n → w < s.cfg.lineWords →
        (linePeriod t k)[w]? = bufWord s (if k = 0 then b else select s.cfg ((k - 1) % s.cfg.wholeFrame)) w

/-- 20_memory.md rules R43, R44: the samples of a scanline word leave in the order of their addresses. -/
def Obligations.WireOrderIsAddressOrder : Prop :=
  ∀ (s : State) (a : Nat) (b0 b1 b2 b3 : Byte), lineByte s a = some b0 → lineByte s (a + 1) = some b1 →
    lineByte s (a + 2) = some b2 → lineByte s (a + 3) = some b3 →
    (lineWord s a).map wireSamples = some [b0, b1, b2, b3]

/-! ### Line buffers -/

/-- 43_line_buffers.md rules R161, R162: the two line patterns, for every sample of a line; no state is written but the model's
result (log 6). -/
def Obligations.LinePatterns : Prop :=
  ∀ (s : State) (k : Nat), k < s.cfg.lineSamples →
    (s.cfg.hsStart ≤ k → k < s.cfg.hsStart + s.cfg.hsWidth →
      exec (.plainLine k) s = .next { s with result := some (.sample (s.cfg.hSync ^^^ s.cfg.syncPolarity)) } ∧
      exec (.vsyncLine k) s = .next { s with result := some (.sample (s.cfg.vhSync ^^^ s.cfg.syncPolarity)) }) ∧
    (k < s.cfg.hsStart ∨ s.cfg.hsStart + s.cfg.hsWidth ≤ k →
      exec (.plainLine k) s = .next { s with result := some (.sample (s.cfg.noSync ^^^ s.cfg.syncPolarity)) } ∧
      exec (.vsyncLine k) s = .next { s with result := some (.sample (s.cfg.vSync ^^^ s.cfg.syncPolarity)) })

/-- 43_line_buffers.md rule R163: TPL_BUILD writes the four templates, whatever they held, and no other byte. -/
def Obligations.TplBuildWritesTheTemplates : Prop :=
  ∀ s : State, s.fault = none → ∃ t, exec .tplBuild s = .next t ∧ t = { s with line := t.line } ∧
    (∀ k, k < s.cfg.lineSamples →
      bufSample t .blank k = some (plainLine s.cfg k) ∧ bufSample t .vsync k = some (vsyncLine s.cfg k) ∧
      bufSample t .imageA k = some (plainLine s.cfg k) ∧ bufSample t .imageB k = some (plainLine s.cfg k)) ∧
    ∀ a, (∀ tpl, ¬ InBuf s.cfg (.tpl tpl) a) → lineByte t a = lineByte s a

/-- 43_line_buffers.md rule R164: the blank template's content at the source's numbers. -/
def Obligations.BlankTemplateContent : Prop :=
  ∀ s : State, s.fault = none → s.cfg.syncPolarity = 0xC0 → s.cfg.wholeLine = 336 → s.cfg.hsWidth = 32 →
    ∃ t, exec .tplBuild s = .next t ∧ s.cfg.lineSamples = 336 ∧ ∀ k, k < 336 →
      bufSample t .blank k =
        some (if s.cfg.hsStart ≤ k ∧ k < s.cfg.hsStart + 32 then s.cfg.hSync ^^^ 0xC0 else s.cfg.noSync ^^^ 0xC0)

/-- 43_line_buffers.md rule R165: REBUILD_ROW stamps the plain pattern and overwrites the active portion with the palette words of
the row's bytes, lane 0 first; with the constructed palette the active samples are the lanes of the pixels; no other byte and no
register changes. -/
def Obligations.RebuildRowBuildsTheLine : Prop :=
  ∀ (s : State) (slot : BitVec 2) (row : Byte), slot.toNat < s.cfg.fbSlots → s.fault = none → s.rb = none →
    (∀ col, col < 128 → (fbByte s slot (fbOffset row col)).isSome = true) →
    ∃ t, exec (.rebuildRow slot row) s = .next t ∧ t = { s with line := t.line } ∧
      (∀ col b, col < 128 → fbByte s slot (fbOffset row col) = some b →
        bufSample t (.prep row) (s.cfg.activeStart + 2 * col) = some ((palEntry s b).extractLsb' 0 8) ∧
        bufSample t (.prep row) (s.cfg.activeStart + 2 * col + 1) = some ((palEntry s b).extractLsb' 8 8)) ∧
      (PaletteBuilt s → ∀ x, x < 256 →
        bufSample t (.prep row) (s.cfg.activeStart + x) = (pixel s slot x row).map (lane s.cfg)) ∧
      (∀ k, k < s.cfg.lineSamples → (k < s.cfg.activeStart ∨ s.cfg.activeStart + 256 ≤ k) →
        bufSample t (.prep row) k = some (plainLine s.cfg k)) ∧
      ∀ a, ¬ InBuf s.cfg (.prep row) a → lineByte t a = lineByte s a

/-- 43_line_buffers.md rule R165, 60_exceptions.md rule R200: REBUILD_ROW that meets a frame-buffer byte nothing has written has
stamped the line and stored the columns before it, and records F_UNINIT_FB with the slot, the row and the column. That `rb` keeps
the micro-step that raised it is the model's reading (log 10). -/
def Obligations.RebuildRowStopsAtUnwrittenByte : Prop :=
  ∀ (s : State) (slot : BitVec 2) (row : Byte) (c : Nat), slot.toNat < s.cfg.fbSlots → s.fault = none → s.rb = none → c < 128 →
    (∀ col, col < c → (fbByte s slot (fbOffset row col)).isSome = true) → fbByte s slot (fbOffset row c) = none →
    ∃ t, exec (.rebuildRow slot row) s = .next t ∧
      t = { s with
        line := t.line
        fault := some (.uninitFb slot row c)
        rb := some ⟨slot, row, s.cfg.lineSamples + c⟩ } ∧
      (∀ col b, col < c → fbByte s slot (fbOffset row col) = some b →
        bufSample t (.prep row) (s.cfg.activeStart + 2 * col) = some ((palEntry s b).extractLsb' 0 8) ∧
        bufSample t (.prep row) (s.cfg.activeStart + 2 * col + 1) = some ((palEntry s b).extractLsb' 8 8)) ∧
      (∀ k, k < s.cfg.lineSamples → (k < s.cfg.activeStart ∨ s.cfg.activeStart + 2 * c ≤ k) →
        bufSample t (.prep row) k = some (plainLine s.cfg k)) ∧
      ∀ a, ¬ InBuf s.cfg (.prep row) a → lineByte t a = lineByte s a

/-- 43_line_buffers.md rule R166: the micro-steps of REBUILD_ROW that are left, all LINE_SAMPLES + FB_STRIDE of them or those from
micro-step m on, taken one step of the machine at a time with no other agent's step between, end in the state REBUILD_ROW gives at
once, fault included. -/
def Obligations.MicroStepsMakeRebuildRow : Prop :=
  ∀ (s t : State) (slot : BitVec 2) (row : Byte) (m : Nat) (ts : List Turn),
    (s.rb = none ∧ m = 0 ∨ s.rb = some ⟨slot, row, m⟩) → m < rebuildSteps s.cfg →
    exec (.rebuildRow slot row) { s with schedule := ts } = .next t →
    core.run (rebuildSteps s.cfg - m) { s with schedule := (microTurns s.cfg slot row).drop m ++ ts } = .next t

/-- 43_line_buffers.md rule R166, 60_exceptions.md rule R200: one micro-step makes one access, the stamp or the palette store of its
index, and moves `rb` on; after the last `rb` is none. A palette store whose frame-buffer byte nothing has written records F_UNINIT_FB
with slot, row and column and stores nothing; that `rb` then names this micro-step is the model's reading (log 10). -/
def Obligations.MicroStepMakesOneAccess : Prop :=
  ∀ (s : State) (slot : BitVec 2) (row : Byte) (m : Nat), slot.toNat < s.cfg.fbSlots → s.fault = none →
    (s.rb = none ∧ m = 0 ∨ s.rb = some ⟨slot, row, m⟩) → m < rebuildSteps s.cfg →
    (m < s.cfg.lineSamples → ∃ t, rebuildMicro slot row s = .next t ∧
      t = { s with line := t.line, rb := some ⟨slot, row, m + 1⟩ } ∧
      ∀ a, lineByte t a = if a = (addr s.cfg (.prep row)).toNat + m then some (plainLine s.cfg m) else lineByte s a) ∧
    (∀ col b, m = s.cfg.lineSamples + col → fbByte s slot (fbOffset row col) = some b → ∃ t, rebuildMicro slot row s = .next t ∧
      t = { s with line := t.line, rb := if col = 127 then none else some ⟨slot, row, m + 1⟩ } ∧
      ∀ a, lineByte t a =
        if a = (addr s.cfg (.prep row)).toNat + s.cfg.activeStart + 2 * col then some ((palEntry s b).extractLsb' 0 8)
        else if a = (addr s.cfg (.prep row)).toNat + s.cfg.activeStart + 2 * col + 1 then some ((palEntry s b).extractLsb' 8 8)
        else lineByte s a) ∧
    ∀ col, m = s.cfg.lineSamples + col → fbByte s slot (fbOffset row col) = none →
      rebuildMicro slot row s = .next { s with fault := some (.uninitFb slot row col), rb := some ⟨slot, row, m⟩ }

/-- The model's reading of the program order of CONSUMER (log 11, 10_state.md rule R31): while the rebuild of one row is in
progress no other rebuild has a step. -/
def Obligations.OneRebuildAtATime : Prop :=
  ∀ (s : State) (slot slot' : BitVec 2) (row row' : Byte) (m : Nat), s.fault = none → s.rb = some ⟨slot, row, m⟩ →
    slot'.toNat < s.cfg.fbSlots →
    exec (.rebuild slot') s = .refused (.notEnabled .rebuildInProgress) ∧
    ((slot', row') ≠ (slot, row) → exec (.rebuildRow slot' row') s = .refused (.notEnabled .rebuildInProgress) ∧
      rebuildMicro slot' row' s = .refused (.notEnabled .rebuildInProgress))

/-- 43_line_buffers.md rule R167: REBUILD builds all 256 prepared lines from the slot's rows as REBUILD_ROW does each, and changes
no other byte and no register. -/
def Obligations.RebuildBuildsEveryLine : Prop :=
  ∀ (s : State) (slot : BitVec 2), slot.toNat < s.cfg.fbSlots → s.fault = none → s.rb = none →
    (∀ off, off < 32768 → (fbByte s slot off).isSome = true) →
    ∃ t, exec (.rebuild slot) s = .next t ∧ t = { s with line := t.line } ∧
      (∀ (row : Byte) (col : Nat) (b : Byte), col < 128 → fbByte s slot (fbOffset row col) = some b →
        bufSample t (.prep row) (s.cfg.activeStart + 2 * col) = some ((palEntry s b).extractLsb' 0 8) ∧
        bufSample t (.prep row) (s.cfg.activeStart + 2 * col + 1) = some ((palEntry s b).extractLsb' 8 8)) ∧
      (∀ (row : Byte) (k : Nat), k < s.cfg.lineSamples → (k < s.cfg.activeStart ∨ s.cfg.activeStart + 256 ≤ k) →
        bufSample t (.prep row) k = some (plainLine s.cfg k)) ∧
      ∀ a, (∀ row, ¬ InBuf s.cfg (.prep row) a) → lineByte t a = lineByte s a

/-- 43_line_buffers.md rule R167, 60_exceptions.md rule R200: REBUILD whose first unwritten frame-buffer byte, row by row and in a row
column by column, is that of row `row` and column c has built the lines before that row, has stamped that row's line and stored the
columns before c, and records F_UNINIT_FB with the slot, the row and the column; the lines after that row and every other byte are as
before. That `rb` keeps the micro-step that raised it is the model's reading (log 10). -/
def Obligations.RebuildStopsAtUnwrittenByte : Prop :=
  ∀ (s : State) (slot : BitVec 2) (row : Byte) (c : Nat), slot.toNat < s.cfg.fbSlots → s.fault = none → s.rb = none → c < 128 →
    (∀ r : Byte, r.toNat < row.toNat → ∀ col, col < 128 → (fbByte s slot (fbOffset r col)).isSome = true) →
    (∀ col, col < c → (fbByte s slot (fbOffset row col)).isSome = true) → fbByte s slot (fbOffset row c) = none →
    ∃ t, exec (.rebuild slot) s = .next t ∧
      t = { s with
        line := t.line
        fault := some (.uninitFb slot row c)
        rb := some ⟨slot, row, s.cfg.lineSamples + c⟩ } ∧
      (∀ (r : Byte) (col : Nat) (b : Byte), (r.toNat < row.toNat ∧ col < 128 ∨ r = row ∧ col < c) →
        fbByte s slot (fbOffset r col) = some b →
        bufSample t (.prep r) (s.cfg.activeStart + 2 * col) = some ((palEntry s b).extractLsb' 0 8) ∧
        bufSample t (.prep r) (s.cfg.activeStart + 2 * col + 1) = some ((palEntry s b).extractLsb' 8 8)) ∧
      (∀ (r : Byte) (k : Nat), k < s.cfg.lineSamples →
        (r.toNat < row.toNat ∧ (k < s.cfg.activeStart ∨ s.cfg.activeStart + 256 ≤ k) ∨
          r = row ∧ (k < s.cfg.activeStart ∨ s.cfg.activeStart + 2 * c ≤ k)) →
        bufSample t (.prep r) k = some (plainLine s.cfg k)) ∧
      ∀ a, (∀ r : Byte, r.toNat ≤ row.toNat → ¬ InBuf s.cfg (.prep r) a) → lineByte t a = lineByte s a

/-- 43_line_buffers.md rule R169: a rebuild over a frame buffer of zeros gives 256 lines whose active region is PAL[0] repeated,
every other sample being the plain pattern. -/
def Obligations.AllZeroRebuild : Prop :=
  ∀ (s : State) (slot : BitVec 2), slot.toNat < s.cfg.fbSlots → s.fault = none → s.rb = none →
    (∀ off, off < 32768 → fbByte s slot off = some 0) →
    ∃ t, exec (.rebuild slot) s = .next t ∧ ∀ row : Byte,
      (∀ c, c < 128 → ∃ lo hi, bufSample t (.prep row) (s.cfg.activeStart + 2 * c) = some lo ∧
        bufSample t (.prep row) (s.cfg.activeStart + 2 * c + 1) = some hi ∧ hi ++ lo = palEntry t 0) ∧
      ∀ k, k < s.cfg.lineSamples → (k < s.cfg.activeStart ∨ s.cfg.activeStart + 256 ≤ k) →
        bufSample t (.prep row) k = some (plainLine s.cfg k)

/-! ### Frame buffers and rotation -/

/-- 44_host_rotation.md rule R182: FB_WRITE stores one byte and changes nothing else. -/
def Obligations.FbWriteStoresOneByte : Prop :=
  ∀ (s : State) (slot : BitVec 2) (off : BitVec 15) (val : Byte), slot.toNat < s.cfg.fbSlots → s.fault = none →
    ∃ t, exec (.fbWrite slot off val) s = .next t ∧ t = { s with fb := t.fb } ∧
      ∀ slot' off', off' < 32768 →
        fbByte t slot' off' = if slot' = slot ∧ off' = off.toNat then some val else fbByte s slot' off'

/-- 44_host_rotation.md rules R183, R191: ACQ_WRITE with buffering on clears the flag of the slot it holds, then takes the first
ready neighbour or returns none (code 3); with buffering off it returns slot 0 and changes nothing, and so it does with one slot
whatever the mode bit, the model's reading of R191 (log 16). A returned value stands in the model's field `result` (log 6). -/
def Obligations.AcqWriteTakesAReadySlot : Prop :=
  ∀ s : State, s.fault = none →
    (s.bufferingMode = false ∨ s.cfg.fbSlots = 1 → exec .acqWrite s = .next { s with result := some (.slot 0) }) ∧
    (s.bufferingMode = true → s.cfg.fbSlots ≠ 1 →
      ((s.ready.set s.inIndex false).get (s.inIndex + 1) = true →
        exec .acqWrite s = .next { s with
          ready := s.ready.set s.inIndex false
          inIndex := s.inIndex + 1
          result := some (.slot (BitVec.ofNat 2 (s.inIndex + 1).val)) }) ∧
      ((s.ready.set s.inIndex false).get (s.inIndex + 1) = false → (s.ready.set s.inIndex false).get (s.inIndex + 2) = true →
        exec .acqWrite s = .next { s with
          ready := s.ready.set s.inIndex false
          inIndex := s.inIndex + 2
          result := some (.slot (BitVec.ofNat 2 (s.inIndex + 2).val)) }) ∧
      ((s.ready.set s.inIndex false).get (s.inIndex + 1) = false → (s.ready.set s.inIndex false).get (s.inIndex + 2) = false →
        exec .acqWrite s = .next { s with ready := s.ready.set s.inIndex false, result := some (.slot 3) }))

/-- 44_host_rotation.md rules R184, R191: ACQ_DISPLAY with buffering on returns slot 0 on the first call, else leaves its slot, marked
ready, for the first neighbour that is not ready, else repeats the slot; with buffering off it returns slot 0 and changes nothing,
and so it does with one slot whatever the mode bit, the model's reading of R191 (log 16). A returned value stands in the model's
field `result` (log 6). -/
def Obligations.AcqDisplayPicksASlot : Prop :=
  ∀ s : State, s.fault = none →
    (s.bufferingMode = false ∨ s.cfg.fbSlots = 1 → exec .acqDisplay s = .next { s with result := some (.slot 0) }) ∧
    (s.bufferingMode = true → s.cfg.fbSlots ≠ 1 →
      (s.firstFrame = true → exec .acqDisplay s = .next { s with firstFrame := false, result := some (.slot 0) }) ∧
      (s.firstFrame = false → s.ready.get (s.outIndex + 1) = false →
        exec .acqDisplay s = .next { s with
          ready := s.ready.set s.outIndex true
          outIndex := s.outIndex + 1
          result := some (.slot (BitVec.ofNat 2 (s.outIndex + 1).val)) }) ∧
      (s.firstFrame = false → s.ready.get (s.outIndex + 1) = true → s.ready.get (s.outIndex + 2) = false →
        exec .acqDisplay s = .next { s with
          ready := s.ready.set s.outIndex true
          outIndex := s.outIndex + 2
          result := some (.slot (BitVec.ofNat 2 (s.outIndex + 2).val)) }) ∧
      (s.firstFrame = false → s.ready.get (s.outIndex + 1) = true → s.ready.get (s.outIndex + 2) = true →
        exec .acqDisplay s = .next { s with result := some (.slot (BitVec.ofNat 2 s.outIndex.val)) }))

/-- 44_host_rotation.md rule R185: CLEAR_BUFFERS zeroes every byte of every slot and the rotation registers and changes nothing
else; calling it twice yields the same state as once. -/
def Obligations.ClearBuffersZeroesTheFrames : Prop :=
  ∀ s : State, s.fault = none → ∃ t, exec .clearBuffers s = .next t ∧
    t = { s with fb := t.fb, inIndex := 0, outIndex := 0, ready := ⟨false, false, false⟩, firstFrame := true } ∧
    (∀ slot off, slot.toNat < s.cfg.fbSlots → off < 32768 → fbByte t slot off = some 0) ∧
    (∀ slot off, s.cfg.fbSlots ≤ slot.toNat → fbByte t slot off = fbByte s slot off) ∧
    exec .clearBuffers t = .next t

/-- 44_host_rotation.md rule R186: SET_BUFFERING writes the mode bit alone; turning buffering on with one slot is refused; with
buffering off both acquire operations return slot 0 and change nothing (the field `result` is the model's, log 6). -/
def Obligations.SetBufferingWritesTheMode : Prop :=
  ∀ (s : State) (e : Bool), s.fault = none →
    (¬ (e = true ∧ s.cfg.fbSlots = 1) → exec (.setBuffering e) s = .next { s with bufferingMode := e }) ∧
    (e = true → s.cfg.fbSlots = 1 → exec (.setBuffering e) s = .refused .oneSlotOnly) ∧
    (s.bufferingMode = false → exec .acqWrite s = .next { s with result := some (.slot 0) } ∧
      exec .acqDisplay s = .next { s with result := some (.slot 0) })

/-- 44_host_rotation.md rule R187: in every state the two acquire operations reach from the cleared state, with buffering on and
more than one slot (70_reset_and_hazards.md rule R242), ACQ_DISPLAY never returns the slot the latest ACQ_WRITE returned and never
none, and ACQ_WRITE never returns the slot at `out_index`. -/
def Obligations.RotationSafety : Prop :=
  ∀ (s t : State) (latest code : BitVec 2), Rotated s latest → t.result = some (.slot code) →
    (exec .acqDisplay s = .next t → code ≠ 3 ∧ (latest ≠ 3 → code ≠ latest)) ∧
    (exec .acqWrite s = .next t → code ≠ 3 → code ≠ BitVec.ofNat 2 s.outIndex.val)

/-! ### The whole machine -/

/-- 10_state.md rule R27: only STREAM puts words out, one at a time, and only RESET empties the history. -/
def Obligations.OnlyStreamPutsOut : Prop :=
  ∀ (i : Instr) (s t : State), exec i s = .next t → i ≠ .reset →
    (i ≠ .stream → t.outStream = s.outStream) ∧ (t.outStream = s.outStream ∨ ∃ w, t.outStream = s.outStream ++ [w])

/-- 00_scope.md rule R2, 70_reset_and_hazards.md rule R246: no step changes the configuration. -/
def Obligations.ConfigurationIsFrozen : Prop := ∀ s t : State, step s = .next t → t.config = s.config

/-- 60_exceptions.md rule R200: once a fault is set only RESET is enabled; every other turn passes and nothing changes (logs 3, 4).
-/
def Obligations.FaultStopsAllButReset : Prop :=
  ∀ s : State, s.fault ≠ none →
    (∀ i w, encode i = some w → i ≠ .reset → i.wf s.cfg = true → exec i s = .refused (.notEnabled .faultSet)) ∧
    (∀ t, s.schedule.head? ≠ some (.event 0) → step s = .next t → t = { s with schedule := s.schedule.tail }) ∧
    ∃ t, exec .reset s = .next t ∧ t.fault = none

/-- 60_exceptions.md rule R215, 42_dma_mux.md rule R142, 20_memory.md rule R60: what each execution context may write; of LINE the
consumer writes prepared lines alone; a port "any" may use writes nothing of the block. -/
def Obligations.ContextsWriteOnlyTheirOwn : Prop :=
  ∀ (i : Instr) (s t : State), exec i s = .next t →
    (i.agent = .isr → t = { s with y := t.y, srcPtr := t.srcPtr, irqPending := false }
      ∨ t = { s with srcPtr := t.srcPtr }) ∧
    (i.agent = .data → t = { s with dmaCnt := t.dmaCnt, outStream := t.outStream, fault := t.fault }) ∧
    (i.agent = .ctrl → t = { s with dmaBase := t.dmaBase, dmaCnt := t.dmaCnt, irqPending := true }) ∧
    (i.agent = .producer → t = { s with fb := t.fb, inIndex := t.inIndex, ready := t.ready, result := t.result }) ∧
    (i.agent = .consumer → t = { s with
      line := t.line, outIndex := t.outIndex, ready := t.ready, firstFrame := t.firstFrame, rb := t.rb, fault := t.fault,
      result := t.result } ∧
      ∀ a, (∀ row, ¬ InBuf s.cfg (.prep row) a) → lineByte t a = lineByte s a) ∧
    (i.agent = .any → t = { s with result := t.result }) ∧
    (i.agent = .host → i ≠ .reset → t = { s with
      pal := t.pal, line := t.line, fb := t.fb, dmaBase := t.dmaBase, dmaCnt := t.dmaCnt, dmaArmed := t.dmaArmed,
      inIndex := t.inIndex, outIndex := t.outIndex, ready := t.ready, firstFrame := t.firstFrame,
      bufferingMode := t.bufferingMode })

/-- 20_memory.md rule R60: only a rebuild writes a prepared line, only FB_WRITE and CLEAR_BUFFERS a frame buffer, only STEP and
RELOAD_SOURCE the published pointer, RESET aside. -/
def Obligations.MemoriesHaveOneWriter : Prop :=
  ∀ (i : Instr) (s t : State), exec i s = .next t → i ≠ .reset →
    (∀ (r : Byte) (a : Nat), InBuf s.cfg (.prep r) a → lineByte t a ≠ lineByte s a →
      (∃ slot row, i = .rebuildRow slot row) ∨ ∃ slot, i = .rebuild slot) ∧
    (∀ slot off, fbByte t slot off ≠ fbByte s slot off → (∃ slot off val, i = .fbWrite slot off val) ∨ i = .clearBuffers) ∧
    (t.srcPtr ≠ s.srcPtr → i = .step ∨ ∃ b, i = .reloadSource b)

/-- 10_state.md rules R11, R15, R16: only STEP and RESET change `y`; only LINE_END sets the interrupt latch and only STEP and
RESET clear it; only ARM arms the chain and only RESET disarms it. -/
def Obligations.OnlyTheirOperationsWriteTheLatches : Prop :=
  ∀ (i : Instr) (s t : State), exec i s = .next t →
    (t.y ≠ s.y → i = .step ∨ i = .reset) ∧
    (s.irqPending = false → t.irqPending = true → i = .lineEnd) ∧
    (s.irqPending = true → t.irqPending = false → i = .step ∨ i = .reset) ∧
    (s.dmaArmed = false → t.dmaArmed = true → ∃ b, i = .arm b) ∧
    (s.dmaArmed = true → t.dmaArmed = false → i = .reset)

/-- 10_state.md rule R17: no operation reads `dma_base` before ARM, so the value left in it at reset (free after RESET, log 5) has
no effect: from two states that differ in nothing else an operation answers alike. -/
def Obligations.UnarmedBaseIsNeverRead : Prop :=
  ∀ (i : Instr) (s : State) (p : Word), s.dmaArmed = false →
    (∀ t, exec i s = .next t → exec i { s with dmaBase := p } = .next t ∧ ((∃ b, i = .arm b) ∨ i = .reset) ∨
      exec i { s with dmaBase := p } = .next { t with dmaBase := p } ∧ t.dmaArmed = false ∧ t.dmaBase = s.dmaBase) ∧
    ∀ r, exec i s = .refused r → exec i { s with dmaBase := p } = .refused r

/-- 70_reset_and_hazards.md rule R237: where the boot obligations hold and every pointer names a written buffer, they keep holding
under every operation but RESET and an ARM or RELOAD_SOURCE of an unwritten buffer, and STREAM never meets an unwritten byte. -/
def Obligations.BootObligationsPreventUnwrittenStream : Prop :=
  ∀ (i : Instr) (s t : State), StreamReady s → i ≠ .reset → (∀ b, i = .arm b ∨ i = .reloadSource b → LineReady s b) →
    exec i s = .next t → StreamReady t ∧ (∀ a, t.fault = some (.uninitLine a) → s.fault = t.fault) ∧
      (Safe s → (∀ slot, i ≠ .rebuild slot) → (∀ slot row, i ≠ .rebuildRow slot row) → Safe t)
end

