-- ==== Sys2Proof/Laws/Memory.lean ====
section
/-! SUPPORT. The laws of the memory lists: what a read gives after a write, that a write keeps the canonical form, and that
canonical memories which read alike are equal. -/

namespace Sys2Proof.Laws

open Sys2Proof.Machine

variable {α : Type}

@[simp] theorem memFind_nil (a : Nat) : memFind ([] : List (Nat × α)) a = none := rfl

theorem memFind_cons (c : Nat × α) (m : List (Nat × α)) (a : Nat) :
    memFind (c :: m) a = if c.1 = a then some c.2 else memFind m a := by
  by_cases h : c.1 = a <;> simp [memFind, h]

theorem memFind_append (m m' : List (Nat × α)) (a : Nat) : memFind (m ++ m') a = (memFind m a).or (memFind m' a) := by
  simp [memFind, List.find?_append, Option.map_or]

/-- A filter that keeps every cell at `a` does not change what is listed there. -/
theorem memFind_filter_of_keep {p : Nat × α → Bool} {a : Nat} (h : ∀ v, p (a, v) = true) (m : List (Nat × α)) :
    memFind (m.filter p) a = memFind m a := by
  induction m with
  | nil => rfl
  | cons c m ih =>
    obtain ⟨x, v⟩ := c
    by_cases hx : x = a
    · subst hx
      simp [memFind_cons, h]
    · by_cases hp : p (x, v) = true <;> simp [hp, memFind_cons, hx, ih]

/-- A filter that drops every cell at `a` lists nothing there. -/
theorem memFind_filter_of_drop {p : Nat × α → Bool} {a : Nat} (h : ∀ v, p (a, v) = false) (m : List (Nat × α)) :
    memFind (m.filter p) a = none := by
  induction m with
  | nil => rfl
  | cons c m ih =>
    obtain ⟨x, v⟩ := c
    by_cases hp : p (x, v) = true
    · have hx : x ≠ a := by rintro rfl; simp [h] at hp
      simp [hp, memFind_cons, hx, ih]
    · simp [hp, ih]

@[simp] theorem cellsAt_nil (a : Nat) : cellsAt a ([] : List α) = [] := rfl

@[simp] theorem cellsAt_cons (a : Nat) (v : α) (vs : List α) : cellsAt a (v :: vs) = (a, v) :: cellsAt (a + 1) vs := by
  simp [cellsAt]

theorem cellsAt_append (a : Nat) (vs ws : List α) : cellsAt a (vs ++ ws) = cellsAt a vs ++ cellsAt (a + vs.length) ws := by
  induction vs generalizing a with
  | nil => simp
  | cons v vs ih => simp [ih, Nat.add_comm, Nat.add_left_comm]

/-- Consecutive cells list exactly the values written, at their addresses. -/
theorem mem_cellsAt {a : Nat} {vs : List α} {c : Nat × α} :
    c ∈ cellsAt a vs ↔ ∃ i, ∃ h : i < vs.length, c = (a + i, vs[i]) := by
  induction vs generalizing a with
  | nil => simp
  | cons v vs ih =>
    simp only [cellsAt_cons, List.mem_cons, ih]
    constructor
    · rintro (rfl | ⟨i, h, rfl⟩)
      · exact ⟨0, by simp⟩
      · exact ⟨i + 1, by simpa using h, by simp [Nat.add_comm, Nat.add_left_comm]⟩
    · rintro ⟨_ | i, h, rfl⟩
      · exact .inl rfl
      · exact .inr ⟨i, by simpa using h, by simp [Nat.add_comm, Nat.add_left_comm]⟩

/-- What filtered consecutive cells list at an address among them. -/
theorem memFind_cellsAt_filter (p : Nat × α → Bool) (a : Nat) (vs : List α) (x : Nat) :
    memFind ((cellsAt a vs).filter p) x =
      if h : a ≤ x ∧ x < a + vs.length then if p (x, vs[x - a]) then some vs[x - a] else none else none := by
  induction vs generalizing a with
  | nil => simp
  | cons v vs ih =>
    have step : memFind ((cellsAt a (v :: vs)).filter p) x =
        if p (a, v) then (if a = x then some v else memFind ((cellsAt (a + 1) vs).filter p) x)
        else memFind ((cellsAt (a + 1) vs).filter p) x := by
      by_cases hp : p (a, v) = true <;> simp [hp, memFind_cons]
    rw [step, ih]
    by_cases hx : a = x
    · subst hx
      simp
    · by_cases hin : a + 1 ≤ x ∧ x < a + 1 + vs.length
      · have h1 : a ≤ x ∧ x < a + (v :: vs).length := by simp; omega
        have h2 : (v :: vs)[x - a]'(by simp; omega) = vs[x - (a + 1)]'(by omega) := by
          have : x - a = (x - (a + 1)) + 1 := by omega
          simp [this]
        simp only [dif_pos hin, dif_pos h1, h2, if_neg hx, ite_self]
      · have h1 : ¬ (a ≤ x ∧ x < a + (v :: vs).length) := by simp; omega
        simp only [dif_neg hin, dif_neg h1, if_neg hx, ite_self]

/-- Consecutive cells stand in rising order. -/
theorem cellsAt_rising (a : Nat) (vs : List α) : ((cellsAt a vs).map (·.1)).Pairwise (· < ·) := by
  induction vs generalizing a with
  | nil => simp
  | cons v vs ih =>
    simp only [cellsAt_cons, List.map_cons, List.pairwise_cons]
    refine ⟨?_, ih (a + 1)⟩
    intro x hx
    obtain ⟨c, hc, rfl⟩ := List.mem_map.mp hx
    obtain ⟨i, _, rfl⟩ := mem_cellsAt.mp hc
    simp; omega

/-- In a canonical memory a listed cell is what is found at its address. -/
theorem memFind_of_mem {m : List (Nat × α)} (h : (m.map (·.1)).Pairwise (· < ·)) {c : Nat × α} (hc : c ∈ m) :
    memFind m c.1 = some c.2 := by
  induction m with
  | nil => simp at hc
  | cons d m ih =>
    simp only [List.map_cons, List.pairwise_cons] at h
    rw [memFind_cons]
    rcases List.mem_cons.mp hc with rfl | hc
    · simp
    · have : d.1 < c.1 := h.1 _ (List.mem_map_of_mem hc)
      rw [if_neg (by omega), ih h.2 hc]

/-- What is found is listed. -/
theorem mem_of_memFind {m : List (Nat × α)} {a : Nat} {v : α} (h : memFind m a = some v) : (a, v) ∈ m := by
  simp only [memFind, Option.map_eq_some_iff] at h
  obtain ⟨c, hc, rfl⟩ := h
  have h1 := List.find?_some hc
  have h2 := List.mem_of_find?_eq_some hc
  simp at h1
  subst h1
  exact h2

variable [DecidableEq α] (init : Nat → Option α)

@[simp] theorem memWrite_nil (m : List (Nat × α)) (a : Nat) : memWrite init m a [] = m := rfl

/-- A read after a write of consecutive values: the value written at an address among them, the old value elsewhere. -/
theorem memRead_memWrite (m : List (Nat × α)) (a : Nat) (vs : List α) (x : Nat) :
    memRead init (memWrite init m a vs) x =
      if h : a ≤ x ∧ x < a + vs.length then some vs[x - a] else memRead init m x := by
  by_cases hv : vs = []
  · subst hv; simp
  · have he : vs.isEmpty = false := by simpa using hv
    have hl : 0 < vs.length := List.length_pos_of_ne_nil hv
    simp only [memWrite, he, Bool.false_eq_true, if_false]
    unfold memRead
    rw [memFind_append, memFind_append]
    by_cases hin : a ≤ x ∧ x < a + vs.length
    · rw [memFind_filter_of_drop (by simp; omega), memFind_filter_of_drop (a := x) (m := m) (by simp; omega),
        memFind_cellsAt_filter]
      simp only [dif_pos hin, Option.none_or, Option.or_none]
      by_cases hd : init x = some vs[x - a]
      · simp [hd]
      · simp [hd]
    · rw [memFind_cellsAt_filter]
      simp only [dif_neg hin, Option.or_none]
      by_cases hlo : x < a
      · rw [memFind_filter_of_keep (by simp [hlo]), memFind_filter_of_drop (a := x) (m := m) (by simp; omega)]
        simp
      · rw [memFind_filter_of_drop (by simp [hlo]), memFind_filter_of_keep (a := x) (m := m) (by simp; omega)]
        simp

/-- The canonical form, spelled out. -/
theorem wf_iff (m : List (Nat × α)) :
    Memory.wf init m = true ↔ (m.map (·.1)).Pairwise (· < ·) ∧ ∀ c ∈ m, init c.1 ≠ some c.2 := by
  simp [Memory.wf, List.isChain_iff_pairwise]

@[simp] theorem wf_nil : Memory.wf init ([] : List (Nat × α)) = true := by simp [Memory.wf]

/-- Every write keeps the canonical form. -/
theorem wf_memWrite {m : List (Nat × α)} (h : Memory.wf init m = true) (a : Nat) (vs : List α) :
    Memory.wf init (memWrite init m a vs) = true := by
  by_cases hv : vs = []
  · subst hv; simpa using h
  · have he : vs.isEmpty = false := by simpa using hv
    rw [wf_iff] at h ⊢
    simp only [memWrite, he, Bool.false_eq_true, if_false]
    have hl : 0 < vs.length := List.length_pos_of_ne_nil hv
    refine ⟨?_, ?_⟩
    · rw [List.map_append, List.map_append]
      have hsub : ∀ p : Nat × α → Bool, ((m.filter p).map (·.1)).Pairwise (· < ·) := fun p =>
        h.1.sublist (List.filter_sublist.map _)
      have hmid : (((cellsAt a vs).filter fun c => decide (init c.1 ≠ some c.2)).map (·.1)).Pairwise (· < ·) :=
        (cellsAt_rising a vs).sublist (List.filter_sublist.map _)
      rw [List.pairwise_append, List.pairwise_append]
      refine ⟨⟨hsub _, hmid, ?_⟩, hsub _, ?_⟩
      · intro x hx y hy
        obtain ⟨c, hc, rfl⟩ := List.mem_map.mp hx
        obtain ⟨d, hd, rfl⟩ := List.mem_map.mp hy
        obtain ⟨i, hi, rfl⟩ := mem_cellsAt.mp (List.mem_of_mem_filter hd)
        have := (List.mem_filter.mp hc).2
        simp at this ⊢; omega
      · intro x hx y hy
        obtain ⟨d, hd, rfl⟩ := List.mem_map.mp hy
        have hd := (List.mem_filter.mp hd).2
        rcases List.mem_append.mp hx with hx | hx
        · obtain ⟨c, hc, rfl⟩ := List.mem_map.mp hx
          have := (List.mem_filter.mp hc).2
          simp at this hd ⊢; omega
        · obtain ⟨c, hc, rfl⟩ := List.mem_map.mp hx
          obtain ⟨i, hi, rfl⟩ := mem_cellsAt.mp (List.mem_of_mem_filter hc)
          simp at hd ⊢; omega
    · intro c hc
      rcases List.mem_append.mp hc with hc | hc
      · rcases List.mem_append.mp hc with hc | hc
        · exact h.2 c (List.mem_of_mem_filter hc)
        · simpa using (List.mem_filter.mp hc).2
      · exact h.2 c (List.mem_of_mem_filter hc)

/-- Equal memories are equal data: canonical memories that read alike at every address are the same list. -/
theorem eq_of_memRead_eq {m m' : List (Nat × α)} (h : Memory.wf init m = true) (h' : Memory.wf init m' = true)
    (he : ∀ a, memRead init m a = memRead init m' a) : m = m' := by
  rw [wf_iff] at h h'
  have key : ∀ {m m' : List (Nat × α)}, (m.map (·.1)).Pairwise (· < ·) → (∀ c ∈ m, init c.1 ≠ some c.2) →
      (∀ a, memRead init m a = memRead init m' a) → m ⊆ m' := by
    intro m m' h1 h2 he c hc
    have hf := memFind_of_mem h1 hc
    have := he c.1
    simp only [memRead, hf] at this
    cases hm : memFind m' c.1 with
    | none => rw [hm] at this; exact absurd this.symm (h2 c hc)
    | some v =>
      rw [hm] at this
      simp only [Option.some.injEq] at this
      subst this
      exact mem_of_memFind hm
  have hp : ∀ {m : List (Nat × α)}, (m.map (·.1)).Pairwise (· < ·) → m.Pairwise (fun c d => c.1 < d.1) :=
    fun h => List.pairwise_map.mp h
  have hn : ∀ {m : List (Nat × α)}, (m.map (·.1)).Pairwise (· < ·) → m.Nodup := fun h =>
    (hp h).imp fun {c d} hlt hcd => by rw [hcd] at hlt; omega
  have hperm : m.Perm m' := (List.perm_ext_iff_of_nodup (hn h.1) (hn h'.1)).mpr fun c =>
    ⟨fun hc => key h.1 h.2 he hc, fun hc => key h'.1 h'.2 (fun a => (he a).symm) hc⟩
  exact hperm.eq_of_pairwise (fun c d _ _ h1 h2 => by omega) (hp h.1) (hp h'.1)

/-- Writing what is there already changes nothing. -/
theorem memWrite_same {m : List (Nat × α)} (h : Memory.wf init m = true) {a : Nat} {vs : List α}
    (hr : ∀ i, ∀ hi : i < vs.length, memRead init m (a + i) = some vs[i]) : memWrite init m a vs = m := by
  refine eq_of_memRead_eq init (wf_memWrite init h a vs) h fun x => ?_
  rw [memRead_memWrite]
  split
  · rename_i hx
    have := hr (x - a) (by omega)
    rw [← this]
    congr 1; omega
  · rfl

/-- Two writes of consecutive values, one after the other, are one write. -/
theorem memWrite_memWrite_append (m : List (Nat × α)) (a : Nat) (vs ws : List α) :
    memWrite init (memWrite init m a vs) (a + vs.length) ws = memWrite init m a (vs ++ ws) := by
  by_cases hv : vs = []
  · subst hv; simp
  by_cases hw : ws = []
  · subst hw; simp
  have he : vs.isEmpty = false := by simpa using hv
  have hw' : ws.isEmpty = false := by simpa using hw
  have hvw : (vs ++ ws).isEmpty = false := by simp [hv]
  have h1 : ∀ x ∈ cellsAt a vs, x.1 < a + vs.length := by
    intro x hx
    obtain ⟨i, hi, rfl⟩ := mem_cellsAt.mp hx
    simp; omega
  simp only [memWrite, he, hw', hvw, Bool.false_eq_true, if_false, List.filter_append, List.filter_filter, cellsAt_append,
    List.length_append]
  have e1 : m.filter (fun c => decide (c.1 < a + vs.length) && decide (c.1 < a)) = m.filter (fun c => decide (c.1 < a)) := by
    apply List.filter_congr; intro c _; simp; omega
  have e2 : m.filter (fun c => decide (c.1 < a + vs.length) && decide (a + vs.length ≤ c.1)) = [] := by
    apply List.filter_eq_nil_iff.mpr; intro c _; simp
  have e3 : m.filter (fun c => decide (a + vs.length + ws.length ≤ c.1) && decide (c.1 < a)) = [] := by
    apply List.filter_eq_nil_iff.mpr; intro c _; simp; omega
  have e4 : m.filter (fun c => decide (a + vs.length + ws.length ≤ c.1) && decide (a + vs.length ≤ c.1)) =
      m.filter (fun c => decide (a + (vs.length + ws.length) ≤ c.1)) := by
    apply List.filter_congr; intro c _; rw [← Bool.decide_and]; exact decide_eq_decide.mpr (by omega)
  have e5 : (cellsAt a vs).filter (fun c => decide (c.1 < a + vs.length) && decide (init c.1 ≠ some c.2)) =
      (cellsAt a vs).filter (fun c => decide (init c.1 ≠ some c.2)) := by
    apply List.filter_congr; intro c hc; simp [h1 c hc]
  have e6 : (cellsAt a vs).filter (fun c => decide (a + vs.length + ws.length ≤ c.1) && decide (init c.1 ≠ some c.2)) = [] := by
    apply List.filter_eq_nil_iff.mpr; intro c hc; have := h1 c hc; simp; omega
  rw [e1, e2, e3, e4, e5, e6]
  simp

end Sys2Proof.Laws
end

