-- ==== Sys2Proof/Laws/State.lean ====
section
/-! SUPPORT. One lemma per field per named update of the state, so that no later proof unfolds a record update; the `ready` flags
read after a write. -/

namespace Sys2Proof.Laws

open Sys2Proof.Machine

variable (s : State)


/-! ### setReady -/

@[simp] theorem setReady_config (k : Fin 3) (v : Bool) : (setReady k v s).config = s.config := rfl
@[simp] theorem setReady_y (k : Fin 3) (v : Bool) : (setReady k v s).y = s.y := rfl
@[simp] theorem setReady_srcPtr (k : Fin 3) (v : Bool) : (setReady k v s).srcPtr = s.srcPtr := rfl
@[simp] theorem setReady_irqPending (k : Fin 3) (v : Bool) : (setReady k v s).irqPending = s.irqPending := rfl
@[simp] theorem setReady_dmaArmed (k : Fin 3) (v : Bool) : (setReady k v s).dmaArmed = s.dmaArmed := rfl
@[simp] theorem setReady_dmaBase (k : Fin 3) (v : Bool) : (setReady k v s).dmaBase = s.dmaBase := rfl
@[simp] theorem setReady_dmaCnt (k : Fin 3) (v : Bool) : (setReady k v s).dmaCnt = s.dmaCnt := rfl
@[simp] theorem setReady_inIndex (k : Fin 3) (v : Bool) : (setReady k v s).inIndex = s.inIndex := rfl
@[simp] theorem setReady_outIndex (k : Fin 3) (v : Bool) : (setReady k v s).outIndex = s.outIndex := rfl
@[simp] theorem setReady_ready (k : Fin 3) (v : Bool) : (setReady k v s).ready = s.ready.set k v := rfl
@[simp] theorem setReady_firstFrame (k : Fin 3) (v : Bool) : (setReady k v s).firstFrame = s.firstFrame := rfl
@[simp] theorem setReady_bufferingMode (k : Fin 3) (v : Bool) : (setReady k v s).bufferingMode = s.bufferingMode := rfl
@[simp] theorem setReady_rb (k : Fin 3) (v : Bool) : (setReady k v s).rb = s.rb := rfl
@[simp] theorem setReady_fault (k : Fin 3) (v : Bool) : (setReady k v s).fault = s.fault := rfl
@[simp] theorem setReady_pal (k : Fin 3) (v : Bool) : (setReady k v s).pal = s.pal := rfl
@[simp] theorem setReady_line (k : Fin 3) (v : Bool) : (setReady k v s).line = s.line := rfl
@[simp] theorem setReady_fb (k : Fin 3) (v : Bool) : (setReady k v s).fb = s.fb := rfl
@[simp] theorem setReady_outStream (k : Fin 3) (v : Bool) : (setReady k v s).outStream = s.outStream := rfl
@[simp] theorem setReady_result (k : Fin 3) (v : Bool) : (setReady k v s).result = s.result := rfl
@[simp] theorem setReady_schedule (k : Fin 3) (v : Bool) : (setReady k v s).schedule = s.schedule := rfl
@[simp] theorem setReady_draws (k : Fin 3) (v : Bool) : (setReady k v s).draws = s.draws := rfl

/-! ### raiseIrq -/

@[simp] theorem raiseIrq_config : (raiseIrq s).config = s.config := rfl
@[simp] theorem raiseIrq_y : (raiseIrq s).y = s.y := rfl
@[simp] theorem raiseIrq_srcPtr : (raiseIrq s).srcPtr = s.srcPtr := rfl
@[simp] theorem raiseIrq_irqPending : (raiseIrq s).irqPending = true := rfl
@[simp] theorem raiseIrq_dmaArmed : (raiseIrq s).dmaArmed = s.dmaArmed := rfl
@[simp] theorem raiseIrq_dmaBase : (raiseIrq s).dmaBase = s.dmaBase := rfl
@[simp] theorem raiseIrq_dmaCnt : (raiseIrq s).dmaCnt = s.dmaCnt := rfl
@[simp] theorem raiseIrq_inIndex : (raiseIrq s).inIndex = s.inIndex := rfl
@[simp] theorem raiseIrq_outIndex : (raiseIrq s).outIndex = s.outIndex := rfl
@[simp] theorem raiseIrq_ready : (raiseIrq s).ready = s.ready := rfl
@[simp] theorem raiseIrq_firstFrame : (raiseIrq s).firstFrame = s.firstFrame := rfl
@[simp] theorem raiseIrq_bufferingMode : (raiseIrq s).bufferingMode = s.bufferingMode := rfl
@[simp] theorem raiseIrq_rb : (raiseIrq s).rb = s.rb := rfl
@[simp] theorem raiseIrq_fault : (raiseIrq s).fault = s.fault := rfl
@[simp] theorem raiseIrq_pal : (raiseIrq s).pal = s.pal := rfl
@[simp] theorem raiseIrq_line : (raiseIrq s).line = s.line := rfl
@[simp] theorem raiseIrq_fb : (raiseIrq s).fb = s.fb := rfl
@[simp] theorem raiseIrq_outStream : (raiseIrq s).outStream = s.outStream := rfl
@[simp] theorem raiseIrq_result : (raiseIrq s).result = s.result := rfl
@[simp] theorem raiseIrq_schedule : (raiseIrq s).schedule = s.schedule := rfl
@[simp] theorem raiseIrq_draws : (raiseIrq s).draws = s.draws := rfl

/-! ### takeIrq -/

@[simp] theorem takeIrq_config : (takeIrq s).config = s.config := rfl
@[simp] theorem takeIrq_y : (takeIrq s).y = s.y := rfl
@[simp] theorem takeIrq_srcPtr : (takeIrq s).srcPtr = s.srcPtr := rfl
@[simp] theorem takeIrq_irqPending : (takeIrq s).irqPending = false := rfl
@[simp] theorem takeIrq_dmaArmed : (takeIrq s).dmaArmed = s.dmaArmed := rfl
@[simp] theorem takeIrq_dmaBase : (takeIrq s).dmaBase = s.dmaBase := rfl
@[simp] theorem takeIrq_dmaCnt : (takeIrq s).dmaCnt = s.dmaCnt := rfl
@[simp] theorem takeIrq_inIndex : (takeIrq s).inIndex = s.inIndex := rfl
@[simp] theorem takeIrq_outIndex : (takeIrq s).outIndex = s.outIndex := rfl
@[simp] theorem takeIrq_ready : (takeIrq s).ready = s.ready := rfl
@[simp] theorem takeIrq_firstFrame : (takeIrq s).firstFrame = s.firstFrame := rfl
@[simp] theorem takeIrq_bufferingMode : (takeIrq s).bufferingMode = s.bufferingMode := rfl
@[simp] theorem takeIrq_rb : (takeIrq s).rb = s.rb := rfl
@[simp] theorem takeIrq_fault : (takeIrq s).fault = s.fault := rfl
@[simp] theorem takeIrq_pal : (takeIrq s).pal = s.pal := rfl
@[simp] theorem takeIrq_line : (takeIrq s).line = s.line := rfl
@[simp] theorem takeIrq_fb : (takeIrq s).fb = s.fb := rfl
@[simp] theorem takeIrq_outStream : (takeIrq s).outStream = s.outStream := rfl
@[simp] theorem takeIrq_result : (takeIrq s).result = s.result := rfl
@[simp] theorem takeIrq_schedule : (takeIrq s).schedule = s.schedule := rfl
@[simp] theorem takeIrq_draws : (takeIrq s).draws = s.draws := rfl

/-! ### setArmed -/

@[simp] theorem setArmed_config : (setArmed s).config = s.config := rfl
@[simp] theorem setArmed_y : (setArmed s).y = s.y := rfl
@[simp] theorem setArmed_srcPtr : (setArmed s).srcPtr = s.srcPtr := rfl
@[simp] theorem setArmed_irqPending : (setArmed s).irqPending = s.irqPending := rfl
@[simp] theorem setArmed_dmaArmed : (setArmed s).dmaArmed = true := rfl
@[simp] theorem setArmed_dmaBase : (setArmed s).dmaBase = s.dmaBase := rfl
@[simp] theorem setArmed_dmaCnt : (setArmed s).dmaCnt = s.dmaCnt := rfl
@[simp] theorem setArmed_inIndex : (setArmed s).inIndex = s.inIndex := rfl
@[simp] theorem setArmed_outIndex : (setArmed s).outIndex = s.outIndex := rfl
@[simp] theorem setArmed_ready : (setArmed s).ready = s.ready := rfl
@[simp] theorem setArmed_firstFrame : (setArmed s).firstFrame = s.firstFrame := rfl
@[simp] theorem setArmed_bufferingMode : (setArmed s).bufferingMode = s.bufferingMode := rfl
@[simp] theorem setArmed_rb : (setArmed s).rb = s.rb := rfl
@[simp] theorem setArmed_fault : (setArmed s).fault = s.fault := rfl
@[simp] theorem setArmed_pal : (setArmed s).pal = s.pal := rfl
@[simp] theorem setArmed_line : (setArmed s).line = s.line := rfl
@[simp] theorem setArmed_fb : (setArmed s).fb = s.fb := rfl
@[simp] theorem setArmed_outStream : (setArmed s).outStream = s.outStream := rfl
@[simp] theorem setArmed_result : (setArmed s).result = s.result := rfl
@[simp] theorem setArmed_schedule : (setArmed s).schedule = s.schedule := rfl
@[simp] theorem setArmed_draws : (setArmed s).draws = s.draws := rfl

/-! ### closeFirstFrame -/

@[simp] theorem closeFirstFrame_config : (closeFirstFrame s).config = s.config := rfl
@[simp] theorem closeFirstFrame_y : (closeFirstFrame s).y = s.y := rfl
@[simp] theorem closeFirstFrame_srcPtr : (closeFirstFrame s).srcPtr = s.srcPtr := rfl
@[simp] theorem closeFirstFrame_irqPending : (closeFirstFrame s).irqPending = s.irqPending := rfl
@[simp] theorem closeFirstFrame_dmaArmed : (closeFirstFrame s).dmaArmed = s.dmaArmed := rfl
@[simp] theorem closeFirstFrame_dmaBase : (closeFirstFrame s).dmaBase = s.dmaBase := rfl
@[simp] theorem closeFirstFrame_dmaCnt : (closeFirstFrame s).dmaCnt = s.dmaCnt := rfl
@[simp] theorem closeFirstFrame_inIndex : (closeFirstFrame s).inIndex = s.inIndex := rfl
@[simp] theorem closeFirstFrame_outIndex : (closeFirstFrame s).outIndex = s.outIndex := rfl
@[simp] theorem closeFirstFrame_ready : (closeFirstFrame s).ready = s.ready := rfl
@[simp] theorem closeFirstFrame_firstFrame : (closeFirstFrame s).firstFrame = false := rfl
@[simp] theorem closeFirstFrame_bufferingMode : (closeFirstFrame s).bufferingMode = s.bufferingMode := rfl
@[simp] theorem closeFirstFrame_rb : (closeFirstFrame s).rb = s.rb := rfl
@[simp] theorem closeFirstFrame_fault : (closeFirstFrame s).fault = s.fault := rfl
@[simp] theorem closeFirstFrame_pal : (closeFirstFrame s).pal = s.pal := rfl
@[simp] theorem closeFirstFrame_line : (closeFirstFrame s).line = s.line := rfl
@[simp] theorem closeFirstFrame_fb : (closeFirstFrame s).fb = s.fb := rfl
@[simp] theorem closeFirstFrame_outStream : (closeFirstFrame s).outStream = s.outStream := rfl
@[simp] theorem closeFirstFrame_result : (closeFirstFrame s).result = s.result := rfl
@[simp] theorem closeFirstFrame_schedule : (closeFirstFrame s).schedule = s.schedule := rfl
@[simp] theorem closeFirstFrame_draws : (closeFirstFrame s).draws = s.draws := rfl

/-! ### setBufferingMode -/

@[simp] theorem setBufferingMode_config (e : Bool) : (setBufferingMode e s).config = s.config := rfl
@[simp] theorem setBufferingMode_y (e : Bool) : (setBufferingMode e s).y = s.y := rfl
@[simp] theorem setBufferingMode_srcPtr (e : Bool) : (setBufferingMode e s).srcPtr = s.srcPtr := rfl
@[simp] theorem setBufferingMode_irqPending (e : Bool) : (setBufferingMode e s).irqPending = s.irqPending := rfl
@[simp] theorem setBufferingMode_dmaArmed (e : Bool) : (setBufferingMode e s).dmaArmed = s.dmaArmed := rfl
@[simp] theorem setBufferingMode_dmaBase (e : Bool) : (setBufferingMode e s).dmaBase = s.dmaBase := rfl
@[simp] theorem setBufferingMode_dmaCnt (e : Bool) : (setBufferingMode e s).dmaCnt = s.dmaCnt := rfl
@[simp] theorem setBufferingMode_inIndex (e : Bool) : (setBufferingMode e s).inIndex = s.inIndex := rfl
@[simp] theorem setBufferingMode_outIndex (e : Bool) : (setBufferingMode e s).outIndex = s.outIndex := rfl
@[simp] theorem setBufferingMode_ready (e : Bool) : (setBufferingMode e s).ready = s.ready := rfl
@[simp] theorem setBufferingMode_firstFrame (e : Bool) : (setBufferingMode e s).firstFrame = s.firstFrame := rfl
@[simp] theorem setBufferingMode_bufferingMode (e : Bool) : (setBufferingMode e s).bufferingMode = e := rfl
@[simp] theorem setBufferingMode_rb (e : Bool) : (setBufferingMode e s).rb = s.rb := rfl
@[simp] theorem setBufferingMode_fault (e : Bool) : (setBufferingMode e s).fault = s.fault := rfl
@[simp] theorem setBufferingMode_pal (e : Bool) : (setBufferingMode e s).pal = s.pal := rfl
@[simp] theorem setBufferingMode_line (e : Bool) : (setBufferingMode e s).line = s.line := rfl
@[simp] theorem setBufferingMode_fb (e : Bool) : (setBufferingMode e s).fb = s.fb := rfl
@[simp] theorem setBufferingMode_outStream (e : Bool) : (setBufferingMode e s).outStream = s.outStream := rfl
@[simp] theorem setBufferingMode_result (e : Bool) : (setBufferingMode e s).result = s.result := rfl
@[simp] theorem setBufferingMode_schedule (e : Bool) : (setBufferingMode e s).schedule = s.schedule := rfl
@[simp] theorem setBufferingMode_draws (e : Bool) : (setBufferingMode e s).draws = s.draws := rfl

/-! ### storeLine -/

@[simp] theorem storeLine_config (a : Nat) (vs : List Byte) : (storeLine a vs s).config = s.config := rfl
@[simp] theorem storeLine_y (a : Nat) (vs : List Byte) : (storeLine a vs s).y = s.y := rfl
@[simp] theorem storeLine_srcPtr (a : Nat) (vs : List Byte) : (storeLine a vs s).srcPtr = s.srcPtr := rfl
@[simp] theorem storeLine_irqPending (a : Nat) (vs : List Byte) : (storeLine a vs s).irqPending = s.irqPending := rfl
@[simp] theorem storeLine_dmaArmed (a : Nat) (vs : List Byte) : (storeLine a vs s).dmaArmed = s.dmaArmed := rfl
@[simp] theorem storeLine_dmaBase (a : Nat) (vs : List Byte) : (storeLine a vs s).dmaBase = s.dmaBase := rfl
@[simp] theorem storeLine_dmaCnt (a : Nat) (vs : List Byte) : (storeLine a vs s).dmaCnt = s.dmaCnt := rfl
@[simp] theorem storeLine_inIndex (a : Nat) (vs : List Byte) : (storeLine a vs s).inIndex = s.inIndex := rfl
@[simp] theorem storeLine_outIndex (a : Nat) (vs : List Byte) : (storeLine a vs s).outIndex = s.outIndex := rfl
@[simp] theorem storeLine_ready (a : Nat) (vs : List Byte) : (storeLine a vs s).ready = s.ready := rfl
@[simp] theorem storeLine_firstFrame (a : Nat) (vs : List Byte) : (storeLine a vs s).firstFrame = s.firstFrame := rfl
@[simp] theorem storeLine_bufferingMode (a : Nat) (vs : List Byte) : (storeLine a vs s).bufferingMode = s.bufferingMode := rfl
@[simp] theorem storeLine_rb (a : Nat) (vs : List Byte) : (storeLine a vs s).rb = s.rb := rfl
@[simp] theorem storeLine_fault (a : Nat) (vs : List Byte) : (storeLine a vs s).fault = s.fault := rfl
@[simp] theorem storeLine_pal (a : Nat) (vs : List Byte) : (storeLine a vs s).pal = s.pal := rfl
@[simp] theorem storeLine_line (a : Nat) (vs : List Byte) : (storeLine a vs s).line = memWrite (lineInitial s.cfg) s.line a vs := rfl
@[simp] theorem storeLine_fb (a : Nat) (vs : List Byte) : (storeLine a vs s).fb = s.fb := rfl
@[simp] theorem storeLine_outStream (a : Nat) (vs : List Byte) : (storeLine a vs s).outStream = s.outStream := rfl
@[simp] theorem storeLine_result (a : Nat) (vs : List Byte) : (storeLine a vs s).result = s.result := rfl
@[simp] theorem storeLine_schedule (a : Nat) (vs : List Byte) : (storeLine a vs s).schedule = s.schedule := rfl
@[simp] theorem storeLine_draws (a : Nat) (vs : List Byte) : (storeLine a vs s).draws = s.draws := rfl

/-! ### storeFb -/

@[simp] theorem storeFb_config (slot : BitVec 2) (off : Nat) (vs : List Byte) : (storeFb slot off vs s).config = s.config := rfl
@[simp] theorem storeFb_y (slot : BitVec 2) (off : Nat) (vs : List Byte) : (storeFb slot off vs s).y = s.y := rfl
@[simp] theorem storeFb_srcPtr (slot : BitVec 2) (off : Nat) (vs : List Byte) : (storeFb slot off vs s).srcPtr = s.srcPtr := rfl
@[simp] theorem storeFb_irqPending (slot : BitVec 2) (off : Nat) (vs : List Byte) : (storeFb slot off vs s).irqPending = s.irqPending := rfl
@[simp] theorem storeFb_dmaArmed (slot : BitVec 2) (off : Nat) (vs : List Byte) : (storeFb slot off vs s).dmaArmed = s.dmaArmed := rfl
@[simp] theorem storeFb_dmaBase (slot : BitVec 2) (off : Nat) (vs : List Byte) : (storeFb slot off vs s).dmaBase = s.dmaBase := rfl
@[simp] theorem storeFb_dmaCnt (slot : BitVec 2) (off : Nat) (vs : List Byte) : (storeFb slot off vs s).dmaCnt = s.dmaCnt := rfl
@[simp] theorem storeFb_inIndex (slot : BitVec 2) (off : Nat) (vs : List Byte) : (storeFb slot off vs s).inIndex = s.inIndex := rfl
@[simp] theorem storeFb_outIndex (slot : BitVec 2) (off : Nat) (vs : List Byte) : (storeFb slot off vs s).outIndex = s.outIndex := rfl
@[simp] theorem storeFb_ready (slot : BitVec 2) (off : Nat) (vs : List Byte) : (storeFb slot off vs s).ready = s.ready := rfl
@[simp] theorem storeFb_firstFrame (slot : BitVec 2) (off : Nat) (vs : List Byte) : (storeFb slot off vs s).firstFrame = s.firstFrame := rfl
@[simp] theorem storeFb_bufferingMode (slot : BitVec 2) (off : Nat) (vs : List Byte) : (storeFb slot off vs s).bufferingMode = s.bufferingMode := rfl
@[simp] theorem storeFb_rb (slot : BitVec 2) (off : Nat) (vs : List Byte) : (storeFb slot off vs s).rb = s.rb := rfl
@[simp] theorem storeFb_fault (slot : BitVec 2) (off : Nat) (vs : List Byte) : (storeFb slot off vs s).fault = s.fault := rfl
@[simp] theorem storeFb_pal (slot : BitVec 2) (off : Nat) (vs : List Byte) : (storeFb slot off vs s).pal = s.pal := rfl
@[simp] theorem storeFb_line (slot : BitVec 2) (off : Nat) (vs : List Byte) : (storeFb slot off vs s).line = s.line := rfl
@[simp] theorem storeFb_fb (slot : BitVec 2) (off : Nat) (vs : List Byte) : (storeFb slot off vs s).fb = memWrite fbInitial s.fb (fbKey slot off) vs := rfl
@[simp] theorem storeFb_outStream (slot : BitVec 2) (off : Nat) (vs : List Byte) : (storeFb slot off vs s).outStream = s.outStream := rfl
@[simp] theorem storeFb_result (slot : BitVec 2) (off : Nat) (vs : List Byte) : (storeFb slot off vs s).result = s.result := rfl
@[simp] theorem storeFb_schedule (slot : BitVec 2) (off : Nat) (vs : List Byte) : (storeFb slot off vs s).schedule = s.schedule := rfl
@[simp] theorem storeFb_draws (slot : BitVec 2) (off : Nat) (vs : List Byte) : (storeFb slot off vs s).draws = s.draws := rfl

/-! ### storePal -/

@[simp] theorem storePal_config (ws : List PalWord) : (storePal ws s).config = s.config := rfl
@[simp] theorem storePal_y (ws : List PalWord) : (storePal ws s).y = s.y := rfl
@[simp] theorem storePal_srcPtr (ws : List PalWord) : (storePal ws s).srcPtr = s.srcPtr := rfl
@[simp] theorem storePal_irqPending (ws : List PalWord) : (storePal ws s).irqPending = s.irqPending := rfl
@[simp] theorem storePal_dmaArmed (ws : List PalWord) : (storePal ws s).dmaArmed = s.dmaArmed := rfl
@[simp] theorem storePal_dmaBase (ws : List PalWord) : (storePal ws s).dmaBase = s.dmaBase := rfl
@[simp] theorem storePal_dmaCnt (ws : List PalWord) : (storePal ws s).dmaCnt = s.dmaCnt := rfl
@[simp] theorem storePal_inIndex (ws : List PalWord) : (storePal ws s).inIndex = s.inIndex := rfl
@[simp] theorem storePal_outIndex (ws : List PalWord) : (storePal ws s).outIndex = s.outIndex := rfl
@[simp] theorem storePal_ready (ws : List PalWord) : (storePal ws s).ready = s.ready := rfl
@[simp] theorem storePal_firstFrame (ws : List PalWord) : (storePal ws s).firstFrame = s.firstFrame := rfl
@[simp] theorem storePal_bufferingMode (ws : List PalWord) : (storePal ws s).bufferingMode = s.bufferingMode := rfl
@[simp] theorem storePal_rb (ws : List PalWord) : (storePal ws s).rb = s.rb := rfl
@[simp] theorem storePal_fault (ws : List PalWord) : (storePal ws s).fault = s.fault := rfl
@[simp] theorem storePal_pal (ws : List PalWord) : (storePal ws s).pal = memWrite (palInitial s.cfg) s.pal 0 ws := rfl
@[simp] theorem storePal_line (ws : List PalWord) : (storePal ws s).line = s.line := rfl
@[simp] theorem storePal_fb (ws : List PalWord) : (storePal ws s).fb = s.fb := rfl
@[simp] theorem storePal_outStream (ws : List PalWord) : (storePal ws s).outStream = s.outStream := rfl
@[simp] theorem storePal_result (ws : List PalWord) : (storePal ws s).result = s.result := rfl
@[simp] theorem storePal_schedule (ws : List PalWord) : (storePal ws s).schedule = s.schedule := rfl
@[simp] theorem storePal_draws (ws : List PalWord) : (storePal ws s).draws = s.draws := rfl

/-! ### setY -/

@[simp] theorem setY_config (v : Nat) : (setY v s).config = s.config := rfl
@[simp] theorem setY_y (v : Nat) : (setY v s).y = v := rfl
@[simp] theorem setY_srcPtr (v : Nat) : (setY v s).srcPtr = s.srcPtr := rfl
@[simp] theorem setY_irqPending (v : Nat) : (setY v s).irqPending = s.irqPending := rfl
@[simp] theorem setY_dmaArmed (v : Nat) : (setY v s).dmaArmed = s.dmaArmed := rfl
@[simp] theorem setY_dmaBase (v : Nat) : (setY v s).dmaBase = s.dmaBase := rfl
@[simp] theorem setY_dmaCnt (v : Nat) : (setY v s).dmaCnt = s.dmaCnt := rfl
@[simp] theorem setY_inIndex (v : Nat) : (setY v s).inIndex = s.inIndex := rfl
@[simp] theorem setY_outIndex (v : Nat) : (setY v s).outIndex = s.outIndex := rfl
@[simp] theorem setY_ready (v : Nat) : (setY v s).ready = s.ready := rfl
@[simp] theorem setY_firstFrame (v : Nat) : (setY v s).firstFrame = s.firstFrame := rfl
@[simp] theorem setY_bufferingMode (v : Nat) : (setY v s).bufferingMode = s.bufferingMode := rfl
@[simp] theorem setY_rb (v : Nat) : (setY v s).rb = s.rb := rfl
@[simp] theorem setY_fault (v : Nat) : (setY v s).fault = s.fault := rfl
@[simp] theorem setY_pal (v : Nat) : (setY v s).pal = s.pal := rfl
@[simp] theorem setY_line (v : Nat) : (setY v s).line = s.line := rfl
@[simp] theorem setY_fb (v : Nat) : (setY v s).fb = s.fb := rfl
@[simp] theorem setY_outStream (v : Nat) : (setY v s).outStream = s.outStream := rfl
@[simp] theorem setY_result (v : Nat) : (setY v s).result = s.result := rfl
@[simp] theorem setY_schedule (v : Nat) : (setY v s).schedule = s.schedule := rfl
@[simp] theorem setY_draws (v : Nat) : (setY v s).draws = s.draws := rfl

/-! ### publish -/

@[simp] theorem publish_config (b : BufId) : (publish b s).config = s.config := rfl
@[simp] theorem publish_y (b : BufId) : (publish b s).y = s.y := rfl
@[simp] theorem publish_srcPtr (b : BufId) : (publish b s).srcPtr = addr s.cfg b := rfl
@[simp] theorem publish_irqPending (b : BufId) : (publish b s).irqPending = s.irqPending := rfl
@[simp] theorem publish_dmaArmed (b : BufId) : (publish b s).dmaArmed = s.dmaArmed := rfl
@[simp] theorem publish_dmaBase (b : BufId) : (publish b s).dmaBase = s.dmaBase := rfl
@[simp] theorem publish_dmaCnt (b : BufId) : (publish b s).dmaCnt = s.dmaCnt := rfl
@[simp] theorem publish_inIndex (b : BufId) : (publish b s).inIndex = s.inIndex := rfl
@[simp] theorem publish_outIndex (b : BufId) : (publish b s).outIndex = s.outIndex := rfl
@[simp] theorem publish_ready (b : BufId) : (publish b s).ready = s.ready := rfl
@[simp] theorem publish_firstFrame (b : BufId) : (publish b s).firstFrame = s.firstFrame := rfl
@[simp] theorem publish_bufferingMode (b : BufId) : (publish b s).bufferingMode = s.bufferingMode := rfl
@[simp] theorem publish_rb (b : BufId) : (publish b s).rb = s.rb := rfl
@[simp] theorem publish_fault (b : BufId) : (publish b s).fault = s.fault := rfl
@[simp] theorem publish_pal (b : BufId) : (publish b s).pal = s.pal := rfl
@[simp] theorem publish_line (b : BufId) : (publish b s).line = s.line := rfl
@[simp] theorem publish_fb (b : BufId) : (publish b s).fb = s.fb := rfl
@[simp] theorem publish_outStream (b : BufId) : (publish b s).outStream = s.outStream := rfl
@[simp] theorem publish_result (b : BufId) : (publish b s).result = s.result := rfl
@[simp] theorem publish_schedule (b : BufId) : (publish b s).schedule = s.schedule := rfl
@[simp] theorem publish_draws (b : BufId) : (publish b s).draws = s.draws := rfl

/-! ### loadChain -/

@[simp] theorem loadChain_config (p : Word) : (loadChain p s).config = s.config := rfl
@[simp] theorem loadChain_y (p : Word) : (loadChain p s).y = s.y := rfl
@[simp] theorem loadChain_srcPtr (p : Word) : (loadChain p s).srcPtr = s.srcPtr := rfl
@[simp] theorem loadChain_irqPending (p : Word) : (loadChain p s).irqPending = s.irqPending := rfl
@[simp] theorem loadChain_dmaArmed (p : Word) : (loadChain p s).dmaArmed = s.dmaArmed := rfl
@[simp] theorem loadChain_dmaBase (p : Word) : (loadChain p s).dmaBase = p := rfl
@[simp] theorem loadChain_dmaCnt (p : Word) : (loadChain p s).dmaCnt = 0 := rfl
@[simp] theorem loadChain_inIndex (p : Word) : (loadChain p s).inIndex = s.inIndex := rfl
@[simp] theorem loadChain_outIndex (p : Word) : (loadChain p s).outIndex = s.outIndex := rfl
@[simp] theorem loadChain_ready (p : Word) : (loadChain p s).ready = s.ready := rfl
@[simp] theorem loadChain_firstFrame (p : Word) : (loadChain p s).firstFrame = s.firstFrame := rfl
@[simp] theorem loadChain_bufferingMode (p : Word) : (loadChain p s).bufferingMode = s.bufferingMode := rfl
@[simp] theorem loadChain_rb (p : Word) : (loadChain p s).rb = s.rb := rfl
@[simp] theorem loadChain_fault (p : Word) : (loadChain p s).fault = s.fault := rfl
@[simp] theorem loadChain_pal (p : Word) : (loadChain p s).pal = s.pal := rfl
@[simp] theorem loadChain_line (p : Word) : (loadChain p s).line = s.line := rfl
@[simp] theorem loadChain_fb (p : Word) : (loadChain p s).fb = s.fb := rfl
@[simp] theorem loadChain_outStream (p : Word) : (loadChain p s).outStream = s.outStream := rfl
@[simp] theorem loadChain_result (p : Word) : (loadChain p s).result = s.result := rfl
@[simp] theorem loadChain_schedule (p : Word) : (loadChain p s).schedule = s.schedule := rfl
@[simp] theorem loadChain_draws (p : Word) : (loadChain p s).draws = s.draws := rfl

/-! ### emitWord -/

@[simp] theorem emitWord_config (w : Word) : (emitWord w s).config = s.config := rfl
@[simp] theorem emitWord_y (w : Word) : (emitWord w s).y = s.y := rfl
@[simp] theorem emitWord_srcPtr (w : Word) : (emitWord w s).srcPtr = s.srcPtr := rfl
@[simp] theorem emitWord_irqPending (w : Word) : (emitWord w s).irqPending = s.irqPending := rfl
@[simp] theorem emitWord_dmaArmed (w : Word) : (emitWord w s).dmaArmed = s.dmaArmed := rfl
@[simp] theorem emitWord_dmaBase (w : Word) : (emitWord w s).dmaBase = s.dmaBase := rfl
@[simp] theorem emitWord_dmaCnt (w : Word) : (emitWord w s).dmaCnt = s.dmaCnt + 1 := rfl
@[simp] theorem emitWord_inIndex (w : Word) : (emitWord w s).inIndex = s.inIndex := rfl
@[simp] theorem emitWord_outIndex (w : Word) : (emitWord w s).outIndex = s.outIndex := rfl
@[simp] theorem emitWord_ready (w : Word) : (emitWord w s).ready = s.ready := rfl
@[simp] theorem emitWord_firstFrame (w : Word) : (emitWord w s).firstFrame = s.firstFrame := rfl
@[simp] theorem emitWord_bufferingMode (w : Word) : (emitWord w s).bufferingMode = s.bufferingMode := rfl
@[simp] theorem emitWord_rb (w : Word) : (emitWord w s).rb = s.rb := rfl
@[simp] theorem emitWord_fault (w : Word) : (emitWord w s).fault = s.fault := rfl
@[simp] theorem emitWord_pal (w : Word) : (emitWord w s).pal = s.pal := rfl
@[simp] theorem emitWord_line (w : Word) : (emitWord w s).line = s.line := rfl
@[simp] theorem emitWord_fb (w : Word) : (emitWord w s).fb = s.fb := rfl
@[simp] theorem emitWord_outStream (w : Word) : (emitWord w s).outStream = s.outStream ++ [w] := rfl
@[simp] theorem emitWord_result (w : Word) : (emitWord w s).result = s.result := rfl
@[simp] theorem emitWord_schedule (w : Word) : (emitWord w s).schedule = s.schedule := rfl
@[simp] theorem emitWord_draws (w : Word) : (emitWord w s).draws = s.draws := rfl

/-! ### setIn -/

@[simp] theorem setIn_config (k : Fin 3) : (setIn k s).config = s.config := rfl
@[simp] theorem setIn_y (k : Fin 3) : (setIn k s).y = s.y := rfl
@[simp] theorem setIn_srcPtr (k : Fin 3) : (setIn k s).srcPtr = s.srcPtr := rfl
@[simp] theorem setIn_irqPending (k : Fin 3) : (setIn k s).irqPending = s.irqPending := rfl
@[simp] theorem setIn_dmaArmed (k : Fin 3) : (setIn k s).dmaArmed = s.dmaArmed := rfl
@[simp] theorem setIn_dmaBase (k : Fin 3) : (setIn k s).dmaBase = s.dmaBase := rfl
@[simp] theorem setIn_dmaCnt (k : Fin 3) : (setIn k s).dmaCnt = s.dmaCnt := rfl
@[simp] theorem setIn_inIndex (k : Fin 3) : (setIn k s).inIndex = k := rfl
@[simp] theorem setIn_outIndex (k : Fin 3) : (setIn k s).outIndex = s.outIndex := rfl
@[simp] theorem setIn_ready (k : Fin 3) : (setIn k s).ready = s.ready := rfl
@[simp] theorem setIn_firstFrame (k : Fin 3) : (setIn k s).firstFrame = s.firstFrame := rfl
@[simp] theorem setIn_bufferingMode (k : Fin 3) : (setIn k s).bufferingMode = s.bufferingMode := rfl
@[simp] theorem setIn_rb (k : Fin 3) : (setIn k s).rb = s.rb := rfl
@[simp] theorem setIn_fault (k : Fin 3) : (setIn k s).fault = s.fault := rfl
@[simp] theorem setIn_pal (k : Fin 3) : (setIn k s).pal = s.pal := rfl
@[simp] theorem setIn_line (k : Fin 3) : (setIn k s).line = s.line := rfl
@[simp] theorem setIn_fb (k : Fin 3) : (setIn k s).fb = s.fb := rfl
@[simp] theorem setIn_outStream (k : Fin 3) : (setIn k s).outStream = s.outStream := rfl
@[simp] theorem setIn_result (k : Fin 3) : (setIn k s).result = s.result := rfl
@[simp] theorem setIn_schedule (k : Fin 3) : (setIn k s).schedule = s.schedule := rfl
@[simp] theorem setIn_draws (k : Fin 3) : (setIn k s).draws = s.draws := rfl

/-! ### setOut -/

@[simp] theorem setOut_config (k : Fin 3) : (setOut k s).config = s.config := rfl
@[simp] theorem setOut_y (k : Fin 3) : (setOut k s).y = s.y := rfl
@[simp] theorem setOut_srcPtr (k : Fin 3) : (setOut k s).srcPtr = s.srcPtr := rfl
@[simp] theorem setOut_irqPending (k : Fin 3) : (setOut k s).irqPending = s.irqPending := rfl
@[simp] theorem setOut_dmaArmed (k : Fin 3) : (setOut k s).dmaArmed = s.dmaArmed := rfl
@[simp] theorem setOut_dmaBase (k : Fin 3) : (setOut k s).dmaBase = s.dmaBase := rfl
@[simp] theorem setOut_dmaCnt (k : Fin 3) : (setOut k s).dmaCnt = s.dmaCnt := rfl
@[simp] theorem setOut_inIndex (k : Fin 3) : (setOut k s).inIndex = s.inIndex := rfl
@[simp] theorem setOut_outIndex (k : Fin 3) : (setOut k s).outIndex = k := rfl
@[simp] theorem setOut_ready (k : Fin 3) : (setOut k s).ready = s.ready := rfl
@[simp] theorem setOut_firstFrame (k : Fin 3) : (setOut k s).firstFrame = s.firstFrame := rfl
@[simp] theorem setOut_bufferingMode (k : Fin 3) : (setOut k s).bufferingMode = s.bufferingMode := rfl
@[simp] theorem setOut_rb (k : Fin 3) : (setOut k s).rb = s.rb := rfl
@[simp] theorem setOut_fault (k : Fin 3) : (setOut k s).fault = s.fault := rfl
@[simp] theorem setOut_pal (k : Fin 3) : (setOut k s).pal = s.pal := rfl
@[simp] theorem setOut_line (k : Fin 3) : (setOut k s).line = s.line := rfl
@[simp] theorem setOut_fb (k : Fin 3) : (setOut k s).fb = s.fb := rfl
@[simp] theorem setOut_outStream (k : Fin 3) : (setOut k s).outStream = s.outStream := rfl
@[simp] theorem setOut_result (k : Fin 3) : (setOut k s).result = s.result := rfl
@[simp] theorem setOut_schedule (k : Fin 3) : (setOut k s).schedule = s.schedule := rfl
@[simp] theorem setOut_draws (k : Fin 3) : (setOut k s).draws = s.draws := rfl

/-! ### clearRotation -/

@[simp] theorem clearRotation_config : (clearRotation s).config = s.config := rfl
@[simp] theorem clearRotation_y : (clearRotation s).y = s.y := rfl
@[simp] theorem clearRotation_srcPtr : (clearRotation s).srcPtr = s.srcPtr := rfl
@[simp] theorem clearRotation_irqPending : (clearRotation s).irqPending = s.irqPending := rfl
@[simp] theorem clearRotation_dmaArmed : (clearRotation s).dmaArmed = s.dmaArmed := rfl
@[simp] theorem clearRotation_dmaBase : (clearRotation s).dmaBase = s.dmaBase := rfl
@[simp] theorem clearRotation_dmaCnt : (clearRotation s).dmaCnt = s.dmaCnt := rfl
@[simp] theorem clearRotation_inIndex : (clearRotation s).inIndex = 0 := rfl
@[simp] theorem clearRotation_outIndex : (clearRotation s).outIndex = 0 := rfl
@[simp] theorem clearRotation_ready : (clearRotation s).ready = Ready.clear := rfl
@[simp] theorem clearRotation_firstFrame : (clearRotation s).firstFrame = true := rfl
@[simp] theorem clearRotation_bufferingMode : (clearRotation s).bufferingMode = s.bufferingMode := rfl
@[simp] theorem clearRotation_rb : (clearRotation s).rb = s.rb := rfl
@[simp] theorem clearRotation_fault : (clearRotation s).fault = s.fault := rfl
@[simp] theorem clearRotation_pal : (clearRotation s).pal = s.pal := rfl
@[simp] theorem clearRotation_line : (clearRotation s).line = s.line := rfl
@[simp] theorem clearRotation_fb : (clearRotation s).fb = s.fb := rfl
@[simp] theorem clearRotation_outStream : (clearRotation s).outStream = s.outStream := rfl
@[simp] theorem clearRotation_result : (clearRotation s).result = s.result := rfl
@[simp] theorem clearRotation_schedule : (clearRotation s).schedule = s.schedule := rfl
@[simp] theorem clearRotation_draws : (clearRotation s).draws = s.draws := rfl

/-! ### setRb -/

@[simp] theorem setRb_config (r : Option Rebuild) : (setRb r s).config = s.config := rfl
@[simp] theorem setRb_y (r : Option Rebuild) : (setRb r s).y = s.y := rfl
@[simp] theorem setRb_srcPtr (r : Option Rebuild) : (setRb r s).srcPtr = s.srcPtr := rfl
@[simp] theorem setRb_irqPending (r : Option Rebuild) : (setRb r s).irqPending = s.irqPending := rfl
@[simp] theorem setRb_dmaArmed (r : Option Rebuild) : (setRb r s).dmaArmed = s.dmaArmed := rfl
@[simp] theorem setRb_dmaBase (r : Option Rebuild) : (setRb r s).dmaBase = s.dmaBase := rfl
@[simp] theorem setRb_dmaCnt (r : Option Rebuild) : (setRb r s).dmaCnt = s.dmaCnt := rfl
@[simp] theorem setRb_inIndex (r : Option Rebuild) : (setRb r s).inIndex = s.inIndex := rfl
@[simp] theorem setRb_outIndex (r : Option Rebuild) : (setRb r s).outIndex = s.outIndex := rfl
@[simp] theorem setRb_ready (r : Option Rebuild) : (setRb r s).ready = s.ready := rfl
@[simp] theorem setRb_firstFrame (r : Option Rebuild) : (setRb r s).firstFrame = s.firstFrame := rfl
@[simp] theorem setRb_bufferingMode (r : Option Rebuild) : (setRb r s).bufferingMode = s.bufferingMode := rfl
@[simp] theorem setRb_rb (r : Option Rebuild) : (setRb r s).rb = r := rfl
@[simp] theorem setRb_fault (r : Option Rebuild) : (setRb r s).fault = s.fault := rfl
@[simp] theorem setRb_pal (r : Option Rebuild) : (setRb r s).pal = s.pal := rfl
@[simp] theorem setRb_line (r : Option Rebuild) : (setRb r s).line = s.line := rfl
@[simp] theorem setRb_fb (r : Option Rebuild) : (setRb r s).fb = s.fb := rfl
@[simp] theorem setRb_outStream (r : Option Rebuild) : (setRb r s).outStream = s.outStream := rfl
@[simp] theorem setRb_result (r : Option Rebuild) : (setRb r s).result = s.result := rfl
@[simp] theorem setRb_schedule (r : Option Rebuild) : (setRb r s).schedule = s.schedule := rfl
@[simp] theorem setRb_draws (r : Option Rebuild) : (setRb r s).draws = s.draws := rfl

/-! ### giveResult -/

@[simp] theorem giveResult_config (r : OpResult) : (giveResult r s).config = s.config := rfl
@[simp] theorem giveResult_y (r : OpResult) : (giveResult r s).y = s.y := rfl
@[simp] theorem giveResult_srcPtr (r : OpResult) : (giveResult r s).srcPtr = s.srcPtr := rfl
@[simp] theorem giveResult_irqPending (r : OpResult) : (giveResult r s).irqPending = s.irqPending := rfl
@[simp] theorem giveResult_dmaArmed (r : OpResult) : (giveResult r s).dmaArmed = s.dmaArmed := rfl
@[simp] theorem giveResult_dmaBase (r : OpResult) : (giveResult r s).dmaBase = s.dmaBase := rfl
@[simp] theorem giveResult_dmaCnt (r : OpResult) : (giveResult r s).dmaCnt = s.dmaCnt := rfl
@[simp] theorem giveResult_inIndex (r : OpResult) : (giveResult r s).inIndex = s.inIndex := rfl
@[simp] theorem giveResult_outIndex (r : OpResult) : (giveResult r s).outIndex = s.outIndex := rfl
@[simp] theorem giveResult_ready (r : OpResult) : (giveResult r s).ready = s.ready := rfl
@[simp] theorem giveResult_firstFrame (r : OpResult) : (giveResult r s).firstFrame = s.firstFrame := rfl
@[simp] theorem giveResult_bufferingMode (r : OpResult) : (giveResult r s).bufferingMode = s.bufferingMode := rfl
@[simp] theorem giveResult_rb (r : OpResult) : (giveResult r s).rb = s.rb := rfl
@[simp] theorem giveResult_fault (r : OpResult) : (giveResult r s).fault = s.fault := rfl
@[simp] theorem giveResult_pal (r : OpResult) : (giveResult r s).pal = s.pal := rfl
@[simp] theorem giveResult_line (r : OpResult) : (giveResult r s).line = s.line := rfl
@[simp] theorem giveResult_fb (r : OpResult) : (giveResult r s).fb = s.fb := rfl
@[simp] theorem giveResult_outStream (r : OpResult) : (giveResult r s).outStream = s.outStream := rfl
@[simp] theorem giveResult_result (r : OpResult) : (giveResult r s).result = some r := rfl
@[simp] theorem giveResult_schedule (r : OpResult) : (giveResult r s).schedule = s.schedule := rfl
@[simp] theorem giveResult_draws (r : OpResult) : (giveResult r s).draws = s.draws := rfl

/-! ### raiseFault -/

@[simp] theorem raiseFault_config (f : FaultMark) : (raiseFault f s).config = s.config := rfl
@[simp] theorem raiseFault_y (f : FaultMark) : (raiseFault f s).y = s.y := rfl
@[simp] theorem raiseFault_srcPtr (f : FaultMark) : (raiseFault f s).srcPtr = s.srcPtr := rfl
@[simp] theorem raiseFault_irqPending (f : FaultMark) : (raiseFault f s).irqPending = s.irqPending := rfl
@[simp] theorem raiseFault_dmaArmed (f : FaultMark) : (raiseFault f s).dmaArmed = s.dmaArmed := rfl
@[simp] theorem raiseFault_dmaBase (f : FaultMark) : (raiseFault f s).dmaBase = s.dmaBase := rfl
@[simp] theorem raiseFault_dmaCnt (f : FaultMark) : (raiseFault f s).dmaCnt = s.dmaCnt := rfl
@[simp] theorem raiseFault_inIndex (f : FaultMark) : (raiseFault f s).inIndex = s.inIndex := rfl
@[simp] theorem raiseFault_outIndex (f : FaultMark) : (raiseFault f s).outIndex = s.outIndex := rfl
@[simp] theorem raiseFault_ready (f : FaultMark) : (raiseFault f s).ready = s.ready := rfl
@[simp] theorem raiseFault_firstFrame (f : FaultMark) : (raiseFault f s).firstFrame = s.firstFrame := rfl
@[simp] theorem raiseFault_bufferingMode (f : FaultMark) : (raiseFault f s).bufferingMode = s.bufferingMode := rfl
@[simp] theorem raiseFault_rb (f : FaultMark) : (raiseFault f s).rb = s.rb := rfl
@[simp] theorem raiseFault_fault (f : FaultMark) : (raiseFault f s).fault = some f := rfl
@[simp] theorem raiseFault_pal (f : FaultMark) : (raiseFault f s).pal = s.pal := rfl
@[simp] theorem raiseFault_line (f : FaultMark) : (raiseFault f s).line = s.line := rfl
@[simp] theorem raiseFault_fb (f : FaultMark) : (raiseFault f s).fb = s.fb := rfl
@[simp] theorem raiseFault_outStream (f : FaultMark) : (raiseFault f s).outStream = s.outStream := rfl
@[simp] theorem raiseFault_result (f : FaultMark) : (raiseFault f s).result = s.result := rfl
@[simp] theorem raiseFault_schedule (f : FaultMark) : (raiseFault f s).schedule = s.schedule := rfl
@[simp] theorem raiseFault_draws (f : FaultMark) : (raiseFault f s).draws = s.draws := rfl

/-! ### popTurn -/

@[simp] theorem popTurn_config : (popTurn s).config = s.config := rfl
@[simp] theorem popTurn_y : (popTurn s).y = s.y := rfl
@[simp] theorem popTurn_srcPtr : (popTurn s).srcPtr = s.srcPtr := rfl
@[simp] theorem popTurn_irqPending : (popTurn s).irqPending = s.irqPending := rfl
@[simp] theorem popTurn_dmaArmed : (popTurn s).dmaArmed = s.dmaArmed := rfl
@[simp] theorem popTurn_dmaBase : (popTurn s).dmaBase = s.dmaBase := rfl
@[simp] theorem popTurn_dmaCnt : (popTurn s).dmaCnt = s.dmaCnt := rfl
@[simp] theorem popTurn_inIndex : (popTurn s).inIndex = s.inIndex := rfl
@[simp] theorem popTurn_outIndex : (popTurn s).outIndex = s.outIndex := rfl
@[simp] theorem popTurn_ready : (popTurn s).ready = s.ready := rfl
@[simp] theorem popTurn_firstFrame : (popTurn s).firstFrame = s.firstFrame := rfl
@[simp] theorem popTurn_bufferingMode : (popTurn s).bufferingMode = s.bufferingMode := rfl
@[simp] theorem popTurn_rb : (popTurn s).rb = s.rb := rfl
@[simp] theorem popTurn_fault : (popTurn s).fault = s.fault := rfl
@[simp] theorem popTurn_pal : (popTurn s).pal = s.pal := rfl
@[simp] theorem popTurn_line : (popTurn s).line = s.line := rfl
@[simp] theorem popTurn_fb : (popTurn s).fb = s.fb := rfl
@[simp] theorem popTurn_outStream : (popTurn s).outStream = s.outStream := rfl
@[simp] theorem popTurn_result : (popTurn s).result = s.result := rfl
@[simp] theorem popTurn_schedule : (popTurn s).schedule = s.schedule.tail := rfl
@[simp] theorem popTurn_draws : (popTurn s).draws = s.draws := rfl

/-! ### placeTurn -/

@[simp] theorem placeTurn_config (t : Turn) : (placeTurn t s).config = s.config := rfl
@[simp] theorem placeTurn_y (t : Turn) : (placeTurn t s).y = s.y := rfl
@[simp] theorem placeTurn_srcPtr (t : Turn) : (placeTurn t s).srcPtr = s.srcPtr := rfl
@[simp] theorem placeTurn_irqPending (t : Turn) : (placeTurn t s).irqPending = s.irqPending := rfl
@[simp] theorem placeTurn_dmaArmed (t : Turn) : (placeTurn t s).dmaArmed = s.dmaArmed := rfl
@[simp] theorem placeTurn_dmaBase (t : Turn) : (placeTurn t s).dmaBase = s.dmaBase := rfl
@[simp] theorem placeTurn_dmaCnt (t : Turn) : (placeTurn t s).dmaCnt = s.dmaCnt := rfl
@[simp] theorem placeTurn_inIndex (t : Turn) : (placeTurn t s).inIndex = s.inIndex := rfl
@[simp] theorem placeTurn_outIndex (t : Turn) : (placeTurn t s).outIndex = s.outIndex := rfl
@[simp] theorem placeTurn_ready (t : Turn) : (placeTurn t s).ready = s.ready := rfl
@[simp] theorem placeTurn_firstFrame (t : Turn) : (placeTurn t s).firstFrame = s.firstFrame := rfl
@[simp] theorem placeTurn_bufferingMode (t : Turn) : (placeTurn t s).bufferingMode = s.bufferingMode := rfl
@[simp] theorem placeTurn_rb (t : Turn) : (placeTurn t s).rb = s.rb := rfl
@[simp] theorem placeTurn_fault (t : Turn) : (placeTurn t s).fault = s.fault := rfl
@[simp] theorem placeTurn_pal (t : Turn) : (placeTurn t s).pal = s.pal := rfl
@[simp] theorem placeTurn_line (t : Turn) : (placeTurn t s).line = s.line := rfl
@[simp] theorem placeTurn_fb (t : Turn) : (placeTurn t s).fb = s.fb := rfl
@[simp] theorem placeTurn_outStream (t : Turn) : (placeTurn t s).outStream = s.outStream := rfl
@[simp] theorem placeTurn_result (t : Turn) : (placeTurn t s).result = s.result := rfl
@[simp] theorem placeTurn_schedule (t : Turn) : (placeTurn t s).schedule = t :: s.schedule := rfl
@[simp] theorem placeTurn_draws (t : Turn) : (placeTurn t s).draws = s.draws := rfl

/-! ### The `ready` flags -/

@[simp] theorem ready_get_set (f : Ready) (k j : Fin 3) (v : Bool) : (f.set k v).get j = if j = k then v else f.get j := by
  fin_cases k <;> fin_cases j <;> rfl

@[simp] theorem ready_get_clear (k : Fin 3) : Ready.clear.get k = false := by
  fin_cases k <;> rfl

/-- Flags that agree at the three slots are equal. -/
theorem ready_ext {f g : Ready} (h : ∀ k, f.get k = g.get k) : f = g := by
  cases f
  cases g
  simpa [Ready.get, Fin.forall_fin_succ] using h

end Sys2Proof.Laws
end

