-- ==== Sys2Proof/Laws/Ops.lean ====
section
/-! SUPPORT. What the shared operations do, said once: preconditions, reads of the three memories after each kind of store, reads
that an update does not touch. -/

namespace Sys2Proof.Laws

open Sys2Proof.Machine

/-! ### Preconditions -/

theorem whenEnabled_eq_next {p : Prop} [Decidable p] {why : Blocked} {k : Answer} {t : State} :
    whenEnabled p why k = .next t ↔ p ∧ k = .next t := by
  unfold whenEnabled; split <;> simp_all

theorem whenEnabled_pos {p : Prop} [Decidable p] {why : Blocked} {k : Answer} (h : p) : whenEnabled p why k = k := if_pos h

theorem whenEnabled_neg {p : Prop} [Decidable p] {why : Blocked} {k : Answer} (h : ¬ p) :
    whenEnabled p why k = .refused (.notEnabled why) := if_neg h

theorem whenFaultFree_eq_next {s : State} {k : Answer} {t : State} :
    whenFaultFree s k = .next t ↔ s.fault = none ∧ k = .next t := whenEnabled_eq_next

theorem whenFaultFree_pos {s : State} {k : Answer} (h : s.fault = none) : whenFaultFree s k = k := whenEnabled_pos h

theorem whenFaultFree_neg {s : State} {k : Answer} (h : s.fault ≠ none) :
    whenFaultFree s k = .refused (.notEnabled .faultSet) := whenEnabled_neg h

theorem whenSlot_eq_next {s : State} {slot : BitVec 2} {k : Answer} {t : State} :
    whenSlot s slot k = .next t ↔ slot.toNat < s.cfg.fbSlots ∧ k = .next t := by
  unfold whenSlot; split <;> simp_all

theorem whenSlot_pos {s : State} {slot : BitVec 2} {k : Answer} (h : slot.toNat < s.cfg.fbSlots) : whenSlot s slot k = k :=
  if_pos h

theorem whenInDomain_eq_next {p : Prop} [Decidable p] {k : Answer} {t : State} :
    whenInDomain p k = .next t ↔ p ∧ k = .next t := by
  unfold whenInDomain; split <;> simp_all

theorem whenInDomain_pos {p : Prop} [Decidable p] {k : Answer} (h : p) : whenInDomain p k = k := if_pos h

/-! ### Reading a memory depends on that memory and the configuration alone -/

theorem lineByte_congr {s t : State} (hc : t.config = s.config) (hm : t.line = s.line) (a : Nat) :
    lineByte t a = lineByte s a := by
  unfold lineByte State.cfg; rw [hc, hm]

theorem fbByte_congr {s t : State} (hm : t.fb = s.fb) (slot : BitVec 2) (off : Nat) : fbByte t slot off = fbByte s slot off := by
  unfold fbByte; rw [hm]

theorem palEntry_congr {s t : State} (hc : t.config = s.config) (hm : t.pal = s.pal) (i : Byte) :
    palEntry t i = palEntry s i := by
  unfold palEntry State.cfg; rw [hc, hm]

theorem lineWord_congr {s t : State} (h : ∀ a, lineByte t a = lineByte s a) (a : Nat) : lineWord t a = lineWord s a := by
  unfold lineWord; rw [h, h, h, h]

/-! ### Reads after stores -/

theorem lineByte_storeLine (s : State) (a : Nat) (vs : List Byte) (x : Nat) :
    lineByte (storeLine a vs s) x = if h : a ≤ x ∧ x < a + vs.length then some vs[x - a] else lineByte s x :=
  memRead_memWrite _ _ _ _ _

/-- A store leaves what was written written. -/
theorem lineByte_isSome_storeLine {s : State} {x : Nat} (h : (lineByte s x).isSome = true) (a : Nat) (vs : List Byte) :
    (lineByte (storeLine a vs s) x).isSome = true := by
  rw [lineByte_storeLine]; split
  · rfl
  · exact h

theorem storeLine_storeLine_append (s : State) (a : Nat) (vs ws : List Byte) :
    storeLine (a + vs.length) ws (storeLine a vs s) = storeLine a (vs ++ ws) s := by
  unfold storeLine
  congr 1
  exact memWrite_memWrite_append _ _ _ _ _

/-- The flat numbering of the frame buffers separates (slot, offset) pairs. -/
theorem fbKey_inj {slot slot' : BitVec 2} {off off' : Nat} (h : off < fbBytes) (h' : off' < fbBytes) :
    fbKey slot off = fbKey slot' off' ↔ slot = slot' ∧ off = off' := by
  have e : slot = slot' ↔ slot.toNat = slot'.toNat := BitVec.toNat_inj.symm
  unfold fbBytes at h h'
  unfold fbKey fbBytes
  constructor
  · intro hk
    have : slot.toNat = slot'.toNat := by omega
    exact ⟨e.mpr this, by omega⟩
  · rintro ⟨rfl, rfl⟩; rfl

theorem fbByte_storeFb (s : State) (slot : BitVec 2) (off : Nat) (vs : List Byte) (slot' : BitVec 2) (off' : Nat) :
    fbByte (storeFb slot off vs s) slot' off' =
      if h : fbKey slot off ≤ fbKey slot' off' ∧ fbKey slot' off' < fbKey slot off + vs.length
      then some vs[fbKey slot' off' - fbKey slot off] else fbByte s slot' off' :=
  memRead_memWrite _ _ _ _ _

/-- Storing one byte: that byte, and no other. -/
theorem fbByte_storeFb_one (s : State) (slot slot' : BitVec 2) {off off' : Nat} (v : Byte) (h : off < fbBytes)
    (h' : off' < fbBytes) :
    fbByte (storeFb slot off [v] s) slot' off' = if slot' = slot ∧ off' = off then some v else fbByte s slot' off' := by
  rw [fbByte_storeFb]
  have hk := fbKey_inj (slot := slot') (slot' := slot) h' h
  by_cases hc : slot' = slot ∧ off' = off
  · obtain ⟨rfl, rfl⟩ := hc; simp
  · rw [if_neg hc, dif_neg]
    simp only [List.length_singleton]
    intro hb
    exact hc (hk.mp (by omega))

theorem fbOffset_lt (row : Byte) {col : Nat} (h : col < fbStride) : fbOffset row col < fbBytes := by
  unfold fbStride at h; unfold fbOffset fbStride fbBytes; have := row.isLt; omega

/-- The row a rebuild reads is the row's bytes of FB. -/
theorem fbRow_getElem (s : State) (slot : BitVec 2) (row : Byte) (col : Nat) (h : col < (fbRow s slot row).length) :
    (fbRow s slot row)[col] = fbByte s slot (fbOffset row col) := by
  have hc : col < fbStride := by simpa [fbRow] using h
  have hk : fbKey slot (fbOffset row 0) + col = fbKey slot (fbOffset row col) := by unfold fbKey fbOffset; omega
  simp only [fbRow, List.getElem_map, List.getElem_range]
  rw [memFind_filter_of_keep (by intro v; simp; omega), hk]
  unfold fbByte memRead fbInitial
  cases memFind s.fb (fbKey slot (fbOffset row col)) <;> rfl

@[simp] theorem fbRow_length (s : State) (slot : BitVec 2) (row : Byte) : (fbRow s slot row).length = fbStride := by
  simp [fbRow]

theorem palEntry_storePal (s : State) (ws : List PalWord) (i : Byte) :
    palEntry (storePal ws s) i = if h : i.toNat < ws.length then ws[i.toNat] else palEntry s i := by
  unfold palEntry storePal State.cfg
  simp only
  rw [memRead_memWrite]
  simp only [Nat.zero_le, true_and, Nat.zero_add, Nat.sub_zero]
  split <;> simp

/-- An entry the state does not list holds its constructed content. -/
theorem palEntry_of_unlisted {s : State} {i : Byte} (h : memFind s.pal i.toNat = none) : palEntry s i = palWord s.cfg i := by
  have : i.toNat < palEntries := i.isLt
  simp [palEntry, memRead, h, palInitial, this]

/-! ### Words -/

/-- A word can be read exactly when its four bytes have been written. -/
theorem lineWord_eq_some {s : State} {a : Nat} {w : Word} :
    lineWord s a = some w ↔ ∃ b0 b1 b2 b3, lineByte s a = some b0 ∧ lineByte s (a + 1) = some b1 ∧
      lineByte s (a + 2) = some b2 ∧ lineByte s (a + 3) = some b3 ∧ w = scanWord b0 b1 b2 b3 := by
  unfold lineWord
  split
  · rename_i b0 b1 b2 b3 h0 h1 h2 h3
    simp [h0, h1, h2, h3, eq_comm]
  · rename_i h
    simp only [reduceCtorEq, false_iff]
    rintro ⟨b0, b1, b2, b3, h0, h1, h2, h3, _⟩
    exact h _ _ _ _ h0 h1 h2 h3

theorem lineWord_isSome {s : State} {a : Nat} :
    (lineWord s a).isSome = true ↔ (lineByte s a).isSome = true ∧ (lineByte s (a + 1)).isSome = true ∧
      (lineByte s (a + 2)).isSome = true ∧ (lineByte s (a + 3)).isSome = true := by
  unfold lineWord
  split
  · rename_i h0 h1 h2 h3; simp [h0, h1, h2, h3]
  · rename_i h
    simp only [Option.isSome_none, Bool.false_eq_true, false_iff, Option.isSome_iff_exists]
    rintro ⟨⟨b0, h0⟩, ⟨b1, h1⟩, ⟨b2, h2⟩, ⟨b3, h3⟩⟩
    exact h _ _ _ _ h0 h1 h2 h3

/-! ### Buffers and addresses -/

/-- ADDR of a buffer is one of the configuration's start addresses. -/
theorem addr_mem_starts (c : Config) (b : BufId) : (addr c b).toNat ∈ c.starts := by
  cases b with
  | tpl k =>
    exact List.mem_append_left _ (List.mem_map_of_mem (by simp [addr]))
  | prep r =>
    exact List.mem_append_right _ (List.mem_map_of_mem (by simp [addr]))

/-- The position of a buffer's start address among all of them. -/
def bufIndex : BufId → Nat
  | .tpl k => k.toNat
  | .prep r => 4 + r.toNat

theorem bufIndex_inj {b d : BufId} (h : bufIndex b = bufIndex d) : b = d := by
  cases b with
  | tpl k =>
    cases d with
    | tpl j => exact congrArg _ (BitVec.toNat_inj.mp h)
    | prep r => have := k.isLt; simp [bufIndex] at h; omega
  | prep r =>
    cases d with
    | tpl j => have := j.isLt; simp [bufIndex] at h; omega
    | prep r' => exact congrArg _ (BitVec.toNat_inj.mp (by simpa [bufIndex] using h))

theorem starts_length (c : Config) : c.starts.length = 260 := by simp [Config.starts]

theorem starts_getElem (c : Config) (b : BufId) (h : bufIndex b < c.starts.length) : c.starts[bufIndex b] = (addr c b).toNat := by
  cases b with
  | tpl k => have hk : k.toNat < 4 := k.isLt; simp [Config.starts, bufIndex, addr, hk]
  | prep r => simp [Config.starts, bufIndex, addr]

/-- Different line buffers do not overlap (20_memory.md rule R47(c)). -/
theorem buffers_apart {c : Config} (hw : c.WellFormed) {b d : BufId} (h : b ≠ d) :
    (addr c b).toNat + c.lineBytes ≤ (addr c d).toNat ∨ (addr c d).toNat + c.lineBytes ≤ (addr c b).toNat := by
  have hl : ∀ b, bufIndex b < c.starts.length := by
    intro b
    rw [starts_length]
    cases b with
    | tpl k => have := k.isLt; simp [bufIndex]; omega
    | prep r => have := r.isLt; simp [bufIndex]; omega
  have hp := List.pairwise_iff_getElem.mp hw.addrApart
  have hne : bufIndex b ≠ bufIndex d := fun e => h (bufIndex_inj e)
  rcases Nat.lt_or_gt_of_ne hne with hlt | hlt
  · simpa only [starts_getElem] using hp _ _ (hl b) (hl d) hlt
  · have := hp _ _ (hl d) (hl b) hlt
    simp only [starts_getElem] at this
    exact this.symm

/-- An address lies in at most one line buffer. -/
theorem inBuf_unique {c : Config} (hw : c.WellFormed) {b d : BufId} {a : Nat} (hb : InBuf c b a) (hd : InBuf c d a) : b = d := by
  by_contra h
  rcases buffers_apart hw h with h | h <;> unfold InBuf at hb hd <;> omega

theorem lineBytes_eq {c : Config} (hw : c.WellFormed) : c.lineBytes = c.lineSamples := by
  have h := hw.lineDivides
  have hd := hw.dividerPos
  have hs : c.lineSamples % 4 = 0 := by
    obtain ⟨q, hq⟩ := Nat.dvd_of_mod_eq_zero h
    have : c.lineSamples = 4 * q := by
      unfold Config.lineSamples
      rw [hq, Nat.mul_comm 4 c.divider, Nat.mul_assoc, Nat.mul_div_cancel_left _ (by omega)]
    omega
  unfold Config.lineBytes Config.lineWords
  omega

theorem mem_allTpl (t : BitVec 2) : t ∈ allTpl := by
  revert t; decide

theorem mem_allRows (r : Byte) : r ∈ allRows := by
  simp only [allRows, List.mem_map, List.mem_range]
  exact ⟨r.toNat, r.isLt, by simp⟩

/-- The template an address lies in. -/
theorem tplAt_eq_some {c : Config} (hw : c.WellFormed) {a : Nat} {t : BitVec 2} :
    tplAt c a = some t ↔ InBuf c (.tpl t) a := by
  constructor
  · intro h; simpa using List.find?_some h
  · intro h
    cases hf : tplAt c a with
    | none =>
      have := List.find?_eq_none.mp hf t (mem_allTpl t)
      simp at this; unfold InBuf at h; omega
    | some t' =>
      have h' : InBuf c (.tpl t') a := by simpa using List.find?_some hf
      have := inBuf_unique hw h' h
      simpa using this

/-- The prepared line an address lies in. -/
theorem prepAt_eq_some {c : Config} (hw : c.WellFormed) {a : Nat} {r : Byte} :
    prepAt c a = some r ↔ InBuf c (.prep r) a := by
  constructor
  · intro h; simpa using List.find?_some h
  · intro h
    cases hf : prepAt c a with
    | none =>
      have := List.find?_eq_none.mp hf r (mem_allRows r)
      simp at this; unfold InBuf at h; omega
    | some r' =>
      have h' : InBuf c (.prep r') a := by simpa using List.find?_some hf
      have := inBuf_unique hw h' h
      simpa using this

/-- Every byte of a line buffer is an address of LINE. -/
theorem lineMapped_of_inBuf {c : Config} (hw : c.WellFormed) {b : BufId} {a : Nat} (h : InBuf c b a) : lineMapped c a = true := by
  cases b with
  | tpl t => simp [lineMapped, (tplAt_eq_some hw).mpr h]
  | prep r => simp [lineMapped, (prepAt_eq_some hw).mpr h]

/-- A word inside a line buffer is a word of LINE. -/
theorem wordMapped_of_inBuf {c : Config} (hw : c.WellFormed) {b : BufId} {w : Nat} (h : w < c.lineWords) :
    wordMapped c ((addr c b).toNat + 4 * w) = true := by
  have hin : ∀ j, j < 4 → InBuf c b ((addr c b).toNat + 4 * w + j) := by
    intro j hj; unfold InBuf Config.lineBytes; omega
  simp only [wordMapped, Bool.and_eq_true]
  exact ⟨⟨⟨lineMapped_of_inBuf hw (hin 0 (by omega)), lineMapped_of_inBuf hw (hin 1 (by omega))⟩,
    lineMapped_of_inBuf hw (hin 2 (by omega))⟩, lineMapped_of_inBuf hw (hin 3 (by omega))⟩

/-- Nothing is written in a prepared line at reset. -/
theorem lineInitial_prep {c : Config} (hw : c.WellFormed) {r : Byte} {a : Nat} (h : InBuf c (.prep r) a) : lineInitial c a = none := by
  unfold lineInitial
  cases hf : tplAt c a with
  | none => rfl
  | some t => exact absurd (inBuf_unique hw h ((tplAt_eq_some hw).mp hf)) (by simp)

/-- A template holds its constructed content at reset. -/
theorem lineInitial_tpl {c : Config} (hw : c.WellFormed) {t : BitVec 2} {k : Nat} (h : k < c.lineBytes) :
    lineInitial c ((addr c (.tpl t)).toNat + k) = some (tplSample c t k) := by
  have : tplAt c ((addr c (.tpl t)).toNat + k) = some t := (tplAt_eq_some hw).mpr (by unfold InBuf; omega)
  simp [lineInitial, this]

/-! ### The scanline state machine -/

/-- NEXT_Y stays in range (40_scanout.md rule R103). -/
theorem nextY_lt {c : Config} (hw : c.WellFormed) {y : Nat} (h : y < c.wholeFrame) : nextY c y < c.wholeFrame := by
  unfold nextY
  split
  · exact hw.framePos
  · omega

end Sys2Proof.Laws
end

