-- ==== Sys2Proof/Laws/Meanings.lean ====
section
/-! SUPPORT. What each meaning can do, said once: it answers a next state exactly when its precondition holds, and then this one. -/

namespace Sys2Proof.Laws

open Sys2Proof.Machine

/-! ### A rebuild -/

@[simp] theorem present_nil {α : Type} : present ([] : List (Option α)) = [] := rfl

@[simp] theorem present_some {α : Type} (v : α) (l : List (Option α)) : present (some v :: l) = v :: present l := rfl

@[simp] theorem present_none {α : Type} (l : List (Option α)) : present (none :: l) = [] := rfl

theorem present_map_some {α : Type} (l : List α) : present (l.map some) = l := by
  induction l with
  | nil => rfl
  | cons v l ih => simp [ih]

theorem present_length_le {α : Type} (l : List (Option α)) : (present l).length ≤ l.length := by
  induction l with
  | nil => simp
  | cons o l ih => cases o <;> simp [ih]

/-- A next state is one next state. -/
theorem next_eq {s t : State} : (Host.Outcome.next s : Answer) = .next t ↔ t = s := by
  simp [eq_comm]

/-! ### One lemma per meaning: when it answers a next state, and which -/

theorem execReset_next {s t : State} : execReset s = .next t ↔ t = resetBlock s := by
  simp only [execReset, next_eq]

theorem execArm_next {b : BufId} {s t : State} :
    execArm b s = .next t ↔ s.fault = none ∧ s.dmaArmed = false ∧ t = setArmed (loadChain (addr s.cfg b) s) := by
  simp only [execArm, whenFaultFree_eq_next, whenEnabled_eq_next, next_eq]

/-- STREAM puts out a word or records F_UNINIT_LINE. -/
theorem execStream_next {s t : State} :
    execStream s = .next t ↔ s.fault = none ∧ s.dmaArmed = true ∧ s.dmaCnt < s.cfg.lineWords ∧
      wordMapped s.cfg (streamAddr s) = true ∧
      ((∃ w, lineWord s (streamAddr s) = some w ∧ t = emitWord w s) ∨
        (lineWord s (streamAddr s) = none ∧ t = raiseFault (.uninitLine (streamAddr s)) s)) := by
  simp only [execStream, whenFaultFree_eq_next, whenEnabled_eq_next]
  refine and_congr_right fun _ => and_congr_right fun _ => and_congr_right fun _ => ?_
  by_cases hm : wordMapped s.cfg (streamAddr s) = true
  · cases hw : lineWord s (streamAddr s) <;> simp [hm, eq_comm (a := t)]
  · simp [hm]

/-- Where the pointer lies in no line buffer, STREAM stops (log 15). -/
theorem execStream_fault {s : State} (hf : s.fault = none) (ha : s.dmaArmed = true) (hc : s.dmaCnt < s.cfg.lineWords)
    (hm : wordMapped s.cfg (streamAddr s) = false) : execStream s = .fault (.noLineBuffer (streamAddr s)) := by
  unfold execStream
  rw [whenFaultFree_pos hf, whenEnabled_pos ha, whenEnabled_pos hc, if_neg (by simp [hm])]

theorem execLineEnd_next {s t : State} :
    execLineEnd s = .next t ↔ s.fault = none ∧ s.dmaArmed = true ∧ s.dmaCnt = s.cfg.lineWords ∧
      t = raiseIrq (loadChain s.srcPtr s) := by
  simp only [execLineEnd, whenFaultFree_eq_next, whenEnabled_eq_next, next_eq]

theorem execStep_next {s t : State} :
    execStep s = .next t ↔ s.fault = none ∧ s.irqPending = true ∧ s.cfg.divider = 1 ∧ s.y < s.cfg.wholeFrame ∧
      t = handleLine s := by
  simp only [execStep, whenFaultFree_eq_next, whenEnabled_eq_next]
  refine and_congr_right fun _ => and_congr_right fun _ => ?_
  by_cases h : s.cfg.divider = 1
  · simp only [h, if_true, whenInDomain_eq_next, true_and, next_eq]
  · simp [h]

theorem execPalRead_next {i : Byte} {s t : State} :
    execPalRead i s = .next t ↔ s.fault = none ∧ t = giveResult (.palette (palEntry s i)) s := by
  simp only [execPalRead, whenFaultFree_eq_next, next_eq]

theorem execPalBuild_next {s t : State} :
    execPalBuild s = .next t ↔ s.fault = none ∧ t = storePal (palContent s.cfg) s := by
  simp only [execPalBuild, whenFaultFree_eq_next, next_eq]

theorem execTplBuild_next {s t : State} :
    execTplBuild s = .next t ↔ s.fault = none ∧ t = buildTpl 3 (buildTpl 2 (buildTpl 1 (buildTpl 0 s))) := by
  simp only [execTplBuild, whenFaultFree_eq_next, next_eq]

theorem execRebuildRow_next {slot : BitVec 2} {row : Byte} {s t : State} :
    execRebuildRow slot row s = .next t ↔ slot.toNat < s.cfg.fbSlots ∧ s.fault = none ∧
      ∃ m, rebuildFrom s slot row = some m ∧ t = rebuildRest slot row m s := by
  simp only [execRebuildRow, whenSlot_eq_next, whenFaultFree_eq_next]
  refine and_congr_right fun _ => and_congr_right fun _ => ?_
  cases rebuildFrom s slot row <;> simp [eq_comm (a := t)]

theorem rebuildMicro_next {slot : BitVec 2} {row : Byte} {s t : State} :
    rebuildMicro slot row s = .next t ↔ slot.toNat < s.cfg.fbSlots ∧ s.fault = none ∧
      ∃ m, rebuildFrom s slot row = some m ∧ t = rebuildAccess slot row m s := by
  simp only [rebuildMicro, whenSlot_eq_next, whenFaultFree_eq_next]
  refine and_congr_right fun _ => and_congr_right fun _ => ?_
  cases rebuildFrom s slot row <;> simp [eq_comm (a := t)]

theorem execRebuild_next {slot : BitVec 2} {s t : State} :
    execRebuild slot s = .next t ↔ slot.toNat < s.cfg.fbSlots ∧ s.fault = none ∧ s.rb = none ∧
      t = rebuildRows slot allRows s := by
  simp only [execRebuild, whenSlot_eq_next, whenFaultFree_eq_next, whenEnabled_eq_next, next_eq]

theorem execFbWrite_next {slot : BitVec 2} {off : BitVec 15} {val : Byte} {s t : State} :
    execFbWrite slot off val s = .next t ↔ slot.toNat < s.cfg.fbSlots ∧ s.fault = none ∧ t = storeFb slot off.toNat [val] s := by
  simp only [execFbWrite, whenSlot_eq_next, whenFaultFree_eq_next, next_eq]

/-- When the rotation decides the slot (44_host_rotation.md rules R183, R184, R191). -/
@[simp] theorem rotating_eq_true {s : State} : rotating s = true ↔ s.bufferingMode = true ∧ s.cfg.fbSlots ≠ 1 := by
  simp [rotating]

@[simp] theorem rotating_eq_false {s : State} : rotating s = false ↔ s.bufferingMode = false ∨ s.cfg.fbSlots = 1 := by
  cases hb : s.bufferingMode <;> simp [rotating, hb]

theorem execAcqWrite_next {s t : State} :
    execAcqWrite s = .next t ↔ s.fault = none ∧
      t = if rotating s then acquireForWrite s else giveResult (.slot (slotCode 0)) s := by
  simp only [execAcqWrite, whenFaultFree_eq_next]
  cases rotating s <;> simp [eq_comm (a := t)]

theorem execAcqDisplay_next {s t : State} :
    execAcqDisplay s = .next t ↔ s.fault = none ∧
      t = if rotating s then acquireForDisplay s else giveResult (.slot (slotCode 0)) s := by
  simp only [execAcqDisplay, whenFaultFree_eq_next]
  cases rotating s <;> simp [eq_comm (a := t)]

theorem execClearBuffers_next {s t : State} :
    execClearBuffers s = .next t ↔ s.fault = none ∧ t = clearRotation (zeroFb s) := by
  simp only [execClearBuffers, whenFaultFree_eq_next, next_eq]

theorem execSetBuffering_next {en : Bool} {s t : State} :
    execSetBuffering en s = .next t ↔ s.fault = none ∧ ¬ (en = true ∧ s.cfg.fbSlots = 1) ∧ t = setBufferingMode en s := by
  simp only [execSetBuffering, whenFaultFree_eq_next]
  refine and_congr_right fun _ => ?_
  by_cases h : en = true ∧ s.cfg.fbSlots = 1 <;> simp [h, eq_comm (a := t)]

theorem execReloadSource_next {b : BufId} {s t : State} :
    execReloadSource b s = .next t ↔ s.fault = none ∧ t = publish b s := by
  simp only [execReloadSource, whenFaultFree_eq_next, next_eq]

theorem execClassify_next {y : Nat} {s t : State} :
    execClassify y s = .next t ↔ y < s.cfg.wholeFrame ∧ t = giveResult (.region (classify s.cfg y)) s := by
  simp only [execClassify, whenInDomain_eq_next, next_eq]

theorem execSelect_next {y : Nat} {s t : State} :
    execSelect y s = .next t ↔ y < s.cfg.wholeFrame ∧ t = giveResult (.buffer (select s.cfg y)) s := by
  simp only [execSelect, whenInDomain_eq_next, next_eq]

theorem execNextY_next {y : Nat} {s t : State} :
    execNextY y s = .next t ↔ y < s.cfg.wholeFrame ∧ t = giveResult (.scanline (nextY s.cfg y)) s := by
  simp only [execNextY, whenInDomain_eq_next, next_eq]

theorem execLane_next {n : BitVec 4} {s t : State} : execLane n s = .next t ↔ t = giveResult (.sample (lane s.cfg n)) s := by
  simp only [execLane, next_eq]

theorem execAddr_next {b : BufId} {s t : State} : execAddr b s = .next t ↔ t = giveResult (.pointer (addr s.cfg b)) s := by
  simp only [execAddr, next_eq]

theorem execPlainLine_next {k : Nat} {s t : State} :
    execPlainLine k s = .next t ↔ k < s.cfg.lineSamples ∧ t = giveResult (.sample (plainLine s.cfg k)) s := by
  simp only [execPlainLine, whenInDomain_eq_next, next_eq]

theorem execVsyncLine_next {k : Nat} {s t : State} :
    execVsyncLine k s = .next t ↔ k < s.cfg.lineSamples ∧ t = giveResult (.sample (vsyncLine s.cfg k)) s := by
  simp only [execVsyncLine, whenInDomain_eq_next, next_eq]

end Sys2Proof.Laws
end

