-- ==== Sys2Proof/Laws/Rebuild.lean ====
section
/-! SUPPORT. What a prepared-line rebuild does to LINE, said once: the bytes before the first absent one, the stamps, the palette
stores, one micro-step. -/

namespace Sys2Proof.Laws

open Sys2Proof.Machine

@[simp] theorem lineByte_setRb (r : Option Rebuild) (s : State) (a : Nat) : lineByte (setRb r s) a = lineByte s a := rfl

@[simp] theorem lineByte_raiseFault (f : FaultMark) (s : State) (a : Nat) : lineByte (raiseFault f s) a = lineByte s a := rfl

/-! ### The bytes before the first absent one -/

theorem present_getElem {α : Type} (l : List (Option α)) {i : Nat} (h : i < (present l).length) :
    l[i]? = some (some (present l)[i]) := by
  induction l generalizing i with
  | nil => simp at h
  | cons o l ih =>
    cases o with
    | none => simp at h
    | some v =>
      cases i with
      | zero => simp
      | succ i => simpa using ih (by simpa using h)

/-- The list ends, or its next entry is absent. -/
theorem present_stop {α : Type} (l : List (Option α)) (h : (present l).length < l.length) :
    l[(present l).length]? = some none := by
  induction l with
  | nil => simp at h
  | cons o l ih =>
    cases o with
    | none => simp
    | some v => simpa using ih (by simpa using h)

/-- The entries up to the first absent one. -/
theorem present_length_eq {α : Type} (l : List (Option α)) {c : Nat} (hc : c ≤ l.length)
    (hp : ∀ i, i < c → ∃ v, l[i]? = some (some v)) (hn : c < l.length → l[c]? = some none) : (present l).length = c := by
  rcases Nat.lt_trichotomy (present l).length c with h | h | h
  · obtain ⟨v, hv⟩ := hp _ h
    rw [present_stop l (by omega)] at hv
    simp at hv
  · exact h
  · have := present_getElem l h
    rw [hn (by have := present_length_le l; omega)] at this
    simp at this

/-! ### Palette words as bytes -/

theorem palBytes_flatMap_length {α : Type} (f : α → PalWord) (l : List α) :
    (l.flatMap fun b => palBytes (f b)).length = 2 * l.length := by
  induction l with
  | nil => rfl
  | cons b l ih => simp [palBytes]; omega

theorem palBytes_flatMap_getElem {α : Type} (f : α → PalWord) (l : List α) {i : Nat} (h : i < l.length) :
    (l.flatMap fun b => palBytes (f b))[2 * i]? = some (lane0 (f l[i])) ∧
    (l.flatMap fun b => palBytes (f b))[2 * i + 1]? = some (lane1 (f l[i])) := by
  induction l generalizing i with
  | nil => simp at h
  | cons b l ih =>
    cases i with
    | zero => simp [palBytes]
    | succ i =>
      have := ih (i := i) (by simpa using h)
      simpa [palBytes, Nat.mul_succ] using this

/-! ### The stamps and the palette stores -/

theorem lineByte_restStamps (row : Byte) (m : Nat) (s : State) (a : Nat) :
    lineByte (restStamps row m s) a =
      if prepSample s.cfg row m ≤ a ∧ a < prepSample s.cfg row s.cfg.lineSamples
      then some (plainLine s.cfg (a - (addr s.cfg (.prep row)).toNat)) else lineByte s a := by
  unfold restStamps
  rw [lineByte_storeLine]
  simp only [List.length_map, List.length_drop, List.length_range, List.getElem_map, List.getElem_drop, List.getElem_range]
  unfold prepSample
  by_cases h : (addr s.cfg (.prep row)).toNat + m ≤ a ∧ a < (addr s.cfg (.prep row)).toNat + s.cfg.lineSamples
  · rw [if_pos h, dif_pos (by omega)]
    congr 2
    omega
  · rw [if_neg h, dif_neg (by omega)]

/-- The bytes a run of palette stores from column `col` reads. -/
def columnBytes (s : State) (slot : BitVec 2) (row : Byte) (col : Nat) : List Byte := present ((fbRow s slot row).drop col)

theorem columnBytes_length_le (s : State) (slot : BitVec 2) (row : Byte) (col : Nat) :
    (columnBytes s slot row col).length ≤ fbStride - col := by
  simpa [columnBytes] using present_length_le ((fbRow s slot row).drop col)

theorem columnBytes_getElem {s : State} {slot : BitVec 2} {row : Byte} {col i : Nat}
    (h : i < (columnBytes s slot row col).length) :
    fbByte s slot (fbOffset row (col + i)) = some (columnBytes s slot row col)[i] := by
  have hl := columnBytes_length_le s slot row col
  have := present_getElem ((fbRow s slot row).drop col) h
  rw [List.getElem?_drop, List.getElem?_eq_getElem (by simp; omega), fbRow_getElem] at this
  exact Option.some.inj this

/-- A run of palette stores ends at the last column or at the first byte nothing has written. -/
theorem columnBytes_stop {s : State} {slot : BitVec 2} {row : Byte} {col : Nat}
    (h : col + (columnBytes s slot row col).length < fbStride) :
    fbByte s slot (fbOffset row (col + (columnBytes s slot row col).length)) = none := by
  have := present_stop ((fbRow s slot row).drop col) (by have := h; unfold columnBytes at this; simp only [List.length_drop, fbRow_length]; omega)
  rw [List.getElem?_drop, List.getElem?_eq_getElem (by simpa [columnBytes] using h), fbRow_getElem] at this
  simpa [columnBytes] using this

/-- How many columns are stored: up to column c, if all before it are written and it is not. -/
theorem columnBytes_length {s : State} {slot : BitVec 2} {row : Byte} {col c : Nat} (hc : col ≤ c) (hs : c ≤ fbStride)
    (hp : ∀ i, col ≤ i → i < c → (fbByte s slot (fbOffset row i)).isSome = true)
    (hn : c < fbStride → fbByte s slot (fbOffset row c) = none) : (columnBytes s slot row col).length = c - col := by
  apply present_length_eq
  · simp; omega
  · intro i hi
    obtain ⟨v, hv⟩ := Option.isSome_iff_exists.mp (hp (col + i) (by omega) (by omega))
    refine ⟨v, ?_⟩
    rw [List.getElem?_drop, List.getElem?_eq_getElem (by simp; omega), fbRow_getElem, hv]
  · intro h
    have h' : c < fbStride := by simp at h; omega
    rw [List.getElem?_drop, List.getElem?_eq_getElem (by simp; omega), fbRow_getElem]
    have : col + (c - col) = c := by omega
    rw [this, hn h']

/-- What the palette stores of a run write: the two lanes of each column's palette word, and no other byte. -/
theorem lineByte_restColumns (slot : BitVec 2) (row : Byte) (col : Nat) (s : State) (a : Nat) :
    lineByte (restColumns slot row col s) a =
      lineByte (storeLine (prepSample s.cfg row (s.cfg.activeStart + 2 * col))
        ((columnBytes s slot row col).flatMap fun b => palBytes (palEntry s b)) s) a := by
  unfold restColumns columnBytes
  extract_lets bytes t
  split <;> rfl

/-- A run of palette stores, seen at sample k of the line. -/
theorem bufSample_restColumns (slot : BitVec 2) (row : Byte) (col : Nat) (s : State) :
    (∀ i, (h : i < (columnBytes s slot row col).length) →
      bufSample (restColumns slot row col s) (.prep row) (s.cfg.activeStart + 2 * (col + i))
        = some (lane0 (palEntry s (columnBytes s slot row col)[i])) ∧
      bufSample (restColumns slot row col s) (.prep row) (s.cfg.activeStart + 2 * (col + i) + 1)
        = some (lane1 (palEntry s (columnBytes s slot row col)[i]))) ∧
    ∀ a, ¬ (prepSample s.cfg row (s.cfg.activeStart + 2 * col) ≤ a ∧
        a < prepSample s.cfg row (s.cfg.activeStart + 2 * (col + (columnBytes s slot row col).length))) →
      lineByte (restColumns slot row col s) a = lineByte s a := by
  have hcfg : (restColumns slot row col s).cfg = s.cfg := by unfold restColumns; extract_lets; split <;> rfl
  constructor
  · intro i h
    have hp := palBytes_flatMap_getElem (palEntry s) (columnBytes s slot row col) h
    have hl := palBytes_flatMap_length (palEntry s) (columnBytes s slot row col)
    unfold bufSample
    rw [hcfg, lineByte_restColumns, lineByte_restColumns, lineByte_storeLine, lineByte_storeLine, dif_pos, dif_pos]
    · rw [← List.getElem?_eq_getElem, ← List.getElem?_eq_getElem]
      constructor
      · rw [← hp.1]; congr 1; unfold prepSample; omega
      · rw [← hp.2]; congr 1; unfold prepSample; omega
    · unfold prepSample; omega
    · unfold prepSample; omega
  · intro a ha
    have hl := palBytes_flatMap_length (palEntry s) (columnBytes s slot row col)
    rw [lineByte_restColumns, lineByte_storeLine, dif_neg]
    unfold prepSample at *; omega

/-- Only `line`, `rb` and `fault` change, and the two latter only as the run ends. -/
theorem restColumns_frame (slot : BitVec 2) (row : Byte) (col : Nat) (s : State) :
    restColumns slot row col s = { s with
      line := (restColumns slot row col s).line
      rb := if col + (columnBytes s slot row col).length < fbStride
        then some ⟨slot, row, s.cfg.lineSamples + (col + (columnBytes s slot row col).length)⟩ else none
      fault := if col + (columnBytes s slot row col).length < fbStride
        then some (.uninitFb slot row (col + (columnBytes s slot row col).length)) else s.fault } := by
  by_cases h : col + (columnBytes s slot row col).length < fbStride
  · simp only [h, if_true]
    unfold columnBytes at h
    simp only [restColumns, h, if_true]
    rfl
  · simp only [h, if_false]
    unfold columnBytes at h
    simp only [restColumns, h, if_false]
    rfl

theorem restStamps_frame (row : Byte) (m : Nat) (s : State) :
    restStamps row m s = { s with line := (restStamps row m s).line } := rfl

@[simp] theorem restStamps_config (row : Byte) (m : Nat) (s : State) : (restStamps row m s).config = s.config := rfl

theorem columnBytes_congr {s t : State} (h : t.fb = s.fb) (slot : BitVec 2) (row : Byte) (col : Nat) :
    columnBytes t slot row col = columnBytes s slot row col := by
  unfold columnBytes fbRow; rw [h]

@[simp] theorem columnBytes_restStamps (slot : BitVec 2) (row row' : Byte) (m col : Nat) (s : State) :
    columnBytes (restStamps row' m s) slot row col = columnBytes s slot row col := columnBytes_congr rfl _ _ _

/-- A rebuild from micro-step m on, its frame. -/
theorem rebuildRest_frame (slot : BitVec 2) (row : Byte) (m : Nat) (s : State) :
    rebuildRest slot row m s = { s with
      line := (rebuildRest slot row m s).line
      rb := (rebuildRest slot row m s).rb
      fault := (rebuildRest slot row m s).fault } := by
  unfold rebuildRest
  rw [restColumns_frame]
  rfl

@[simp] theorem rebuildRest_config (slot : BitVec 2) (row : Byte) (m : Nat) (s : State) :
    (rebuildRest slot row m s).config = s.config := by rw [rebuildRest_frame]

@[simp] theorem rebuildRest_fb (slot : BitVec 2) (row : Byte) (m : Nat) (s : State) :
    (rebuildRest slot row m s).fb = s.fb := by rw [rebuildRest_frame]

@[simp] theorem rebuildRest_pal (slot : BitVec 2) (row : Byte) (m : Nat) (s : State) :
    (rebuildRest slot row m s).pal = s.pal := by rw [rebuildRest_frame]

/-- A rebuild writes no byte outside its prepared line. -/
theorem lineByte_rebuildRest_outside {slot : BitVec 2} {row : Byte} {m : Nat} {s : State} {a : Nat}
    (h : ¬ InBuf s.cfg (.prep row) a) : lineByte (rebuildRest slot row m s) a = lineByte s a := by
  have hw : s.cfg.WellFormed := s.config.ok
  have hb := lineBytes_eq hw
  have ha : s.cfg.activeStart + activeSamples ≤ s.cfg.lineSamples := hw.activeFits
  have hl := columnBytes_length_le s slot row (m - s.cfg.lineSamples)
  have hne := lineByte_restStamps row m s a
  unfold rebuildRest
  rw [(bufSample_restColumns slot row _ (restStamps row m s)).2 a, hne, if_neg]
  · unfold InBuf prepSample at *; omega
  · rw [columnBytes_restStamps]
    unfold InBuf at h
    change ¬ (prepSample s.cfg row (s.cfg.activeStart + _) ≤ a ∧ a < prepSample s.cfg row (s.cfg.activeStart + _))
    unfold prepSample
    unfold fbStride at hl
    unfold activeSamples at ha
    by_cases hc : m - s.cfg.lineSamples ≤ 128
    · omega
    · omega

/-- The rebuilds of several rows, their frame. -/
theorem rebuildRows_frame (slot : BitVec 2) (rows : List Byte) (s : State) :
    rebuildRows slot rows s = { s with
      line := (rebuildRows slot rows s).line
      rb := (rebuildRows slot rows s).rb
      fault := (rebuildRows slot rows s).fault } := by
  induction rows generalizing s with
  | nil => rfl
  | cons r rest ih =>
    simp only [rebuildRows]
    split
    · rw [ih, rebuildRest_frame]
    · exact rebuildRest_frame slot r 0 s

/-- The rebuilds of several rows write no byte outside those rows' prepared lines. -/
theorem lineByte_rebuildRows_outside {slot : BitVec 2} {rows : List Byte} {s : State} {a : Nat}
    (h : ∀ r ∈ rows, ¬ InBuf s.cfg (.prep r) a) : lineByte (rebuildRows slot rows s) a = lineByte s a := by
  induction rows generalizing s with
  | nil => rfl
  | cons r rest ih =>
    have hr := lineByte_rebuildRest_outside (slot := slot) (m := 0) (h r List.mem_cons_self)
    simp only [rebuildRows]
    split
    · rw [ih fun r' hr' => by simpa only [State.cfg, rebuildRest_config] using h r' (List.mem_cons_of_mem _ hr'), hr]
    · exact hr

/-- A rebuild leaves what was written written. -/
theorem lineByte_isSome_rebuildRest {s : State} {a : Nat} (h : (lineByte s a).isSome = true) (slot : BitVec 2) (row : Byte)
    (m : Nat) : (lineByte (rebuildRest slot row m s) a).isSome = true := by
  unfold rebuildRest
  rw [lineByte_restColumns]
  exact lineByte_isSome_storeLine (lineByte_isSome_storeLine h _ _) _ _

theorem lineByte_isSome_rebuildAccess {s : State} {a : Nat} (h : (lineByte s a).isSome = true) (slot : BitVec 2) (row : Byte)
    (m : Nat) : (lineByte (rebuildAccess slot row m s) a).isSome = true := by
  unfold rebuildAccess
  extract_lets col
  split
  · rw [lineByte_setRb]
    exact lineByte_isSome_storeLine h _ _
  · split
    · rw [lineByte_setRb]
      exact lineByte_isSome_storeLine h _ _
    · exact h

end Sys2Proof.Laws
end

