-- ==== Sys2Proof/Laws/Canonical.lean ====
section
/-! SUPPORT. Every memory operation keeps the canonical form, and the memories at reset have it. -/

namespace Sys2Proof.Laws

open Sys2Proof.Machine

/-- The memories at reset, of every configuration, and so of `State.reset`. -/
theorem canonicalMemory_reset (c : WfConfig) : CanonicalMemory (State.resetOf c) :=
  ⟨wf_nil _, wf_nil _, wf_nil _⟩

/-- The canonical form depends on the memories and the configuration alone. -/
theorem canonicalMemory_congr {s t : State} (hc : t.config = s.config) (hp : t.pal = s.pal) (hl : t.line = s.line)
    (hf : t.fb = s.fb) : CanonicalMemory t ↔ CanonicalMemory s := by
  unfold CanonicalMemory State.cfg; rw [hc, hp, hl, hf]

theorem canonicalMemory_setRb {r : Option Rebuild} {s : State} : CanonicalMemory (setRb r s) ↔ CanonicalMemory s := Iff.rfl

theorem canonicalMemory_storeLine {s : State} (h : CanonicalMemory s) (a : Nat) (vs : List Byte) :
    CanonicalMemory (storeLine a vs s) := ⟨h.1, wf_memWrite _ h.2.1 _ _, h.2.2⟩

theorem canonicalMemory_storeFb {s : State} (h : CanonicalMemory s) (slot : BitVec 2) (off : Nat) (vs : List Byte) :
    CanonicalMemory (storeFb slot off vs s) := ⟨h.1, h.2.1, wf_memWrite _ h.2.2 _ _⟩

theorem canonicalMemory_storePal {s : State} (h : CanonicalMemory s) (ws : List PalWord) :
    CanonicalMemory (storePal ws s) := ⟨wf_memWrite _ h.1 _ _, h.2.1, h.2.2⟩

/-- A rebuild from micro-step m on keeps the canonical form. -/
theorem canonicalMemory_rebuildRest {s : State} (h : CanonicalMemory s) (slot : BitVec 2) (row : Byte) (m : Nat) :
    CanonicalMemory (rebuildRest slot row m s) := by
  have hs : CanonicalMemory (restStamps row m s) := canonicalMemory_storeLine h _ _
  unfold rebuildRest restColumns
  extract_lets bytes t
  have ht : CanonicalMemory t := canonicalMemory_storeLine hs _ _
  split
  · exact (canonicalMemory_congr (s := t) rfl rfl rfl rfl).mpr ht
  · exact (canonicalMemory_congr (s := t) rfl rfl rfl rfl).mpr ht

/-- One micro-step keeps the canonical form. -/
theorem canonicalMemory_rebuildAccess {s : State} (h : CanonicalMemory s) (slot : BitVec 2) (row : Byte) (m : Nat) :
    CanonicalMemory (rebuildAccess slot row m s) := by
  unfold rebuildAccess
  extract_lets col
  split
  · exact canonicalMemory_setRb.mpr (canonicalMemory_storeLine h _ _)
  · split
    · exact canonicalMemory_setRb.mpr (canonicalMemory_storeLine h _ _)
    · exact (canonicalMemory_congr (s := s) rfl rfl rfl rfl).mpr h

theorem canonicalMemory_rebuildRows {s : State} (h : CanonicalMemory s) (slot : BitVec 2) (rows : List Byte) :
    CanonicalMemory (rebuildRows slot rows s) := by
  induction rows generalizing s with
  | nil => exact h
  | cons r rest ih =>
    have ht := canonicalMemory_rebuildRest h slot r 0
    simp only [rebuildRows]
    split
    · exact ih ht
    · exact ht

end Sys2Proof.Laws
end

