-- ==== Sys2Proof/Laws/PerInstr.lean ====
section
/-! SUPPORT. One statement per operation: its event word, where it has one, is a word of its own row of the opcode map
(30_encoding.md rule R82). -/

namespace Sys2Proof.Laws

/-- The `op` field of an event word is the operation's. -/
theorem fieldOp_eventWord (op : BitVec 4) (slot : BitVec 2) (off : BitVec 15) (low : Byte) :
    fieldOp (eventWord op slot off low) = op := by
  apply BitVec.eq_of_getLsbD_eq
  intro i hi
  simp only [fieldOp, eventWord, BitVec.getLsbD_extractLsb', BitVec.getLsbD_append]
  interval_cases i <;> simp

theorem fieldOp_eventWordSel (op : BitVec 4) (b : BufId) : fieldOp (eventWordSel op b) = op := by
  apply BitVec.eq_of_getLsbD_eq
  intro i hi
  simp only [fieldOp, eventWordSel, BitVec.getLsbD_extractLsb', BitVec.getLsbD_append]
  interval_cases i <;> simp

end Sys2Proof.Laws

/-- The event word of an operation, if it has one, matches the row its `op` field selects. -/
def Sys2Proof.Laws.Encoding.Statement (i : Sys2Proof.Instr) : Prop :=
  ∀ w, Sys2Proof.encode i = some w →
    w &&& (Sys2Proof.opRow (Sys2Proof.fieldOp w)).mask = (Sys2Proof.opRow (Sys2Proof.fieldOp w)).pattern

namespace Sys2Proof.Laws

/-- The only word to check is the encoder's. -/
theorem Encoding.of_encode {i : Instr} {w : Word} (h : encode i = some w)
    (hm : w &&& (opRow (fieldOp w)).mask = (opRow (fieldOp w)).pattern) : Encoding.Statement i := by
  intro w' h'
  rw [h] at h'
  cases h'
  exact hm

/-- A pure function has no event word. -/
theorem Encoding.of_none {i : Instr} (h : encode i = none) : Encoding.Statement i := by
  intro w h'
  rw [h] at h'
  cases h'

/-- An event word with a selector matches its row. -/
theorem eventWordSel_match {op : BitVec 4} (h : op = 1 ∨ op = 15) (b : BufId) :
    eventWordSel op b &&& (opRow op).mask = (opRow op).pattern := by
  apply BitVec.eq_of_getLsbD_eq
  intro i hi
  rcases h with rfl | rfl <;>
    (simp only [opRow, eventWordSel, BitVec.getLsbD_and, BitVec.getLsbD_append]; interval_cases i <;> simp)

theorem Encoding.reset : Encoding.Statement .reset := Encoding.of_encode rfl (by decide)

theorem Encoding.arm (b : BufId) : Encoding.Statement (.arm b) :=
  Encoding.of_encode rfl (by rw [fieldOp_eventWordSel]; exact eventWordSel_match (.inl rfl) b)

theorem Encoding.stream : Encoding.Statement .stream := Encoding.of_encode rfl (by decide)

theorem Encoding.lineEnd : Encoding.Statement .lineEnd := Encoding.of_encode rfl (by decide)

theorem Encoding.step : Encoding.Statement .step := Encoding.of_encode rfl (by decide)

theorem Encoding.palRead (idx : Byte) : Encoding.Statement (.palRead idx) := by
  refine Encoding.of_encode rfl ?_
  rw [fieldOp_eventWord]
  apply BitVec.eq_of_getLsbD_eq
  intro i hi
  simp only [opRow, eventWord, BitVec.getLsbD_and, BitVec.getLsbD_append]
  interval_cases i <;> simp

theorem Encoding.palBuild : Encoding.Statement .palBuild := Encoding.of_encode rfl (by decide)

theorem Encoding.tplBuild : Encoding.Statement .tplBuild := Encoding.of_encode rfl (by decide)

theorem Encoding.rebuildRow (slot : BitVec 2) (row : Byte) : Encoding.Statement (.rebuildRow slot row) := by
  refine Encoding.of_encode rfl ?_
  rw [fieldOp_eventWord]
  apply BitVec.eq_of_getLsbD_eq
  intro i hi
  simp only [opRow, eventWord, BitVec.getLsbD_and, BitVec.getLsbD_append]
  interval_cases i <;> simp

theorem Encoding.rebuild (slot : BitVec 2) : Encoding.Statement (.rebuild slot) := by
  refine Encoding.of_encode rfl ?_
  rw [fieldOp_eventWord]
  revert slot
  decide

theorem Encoding.fbWrite (slot : BitVec 2) (off : BitVec 15) (val : Byte) : Encoding.Statement (.fbWrite slot off val) := by
  refine Encoding.of_encode rfl ?_
  rw [fieldOp_eventWord]
  apply BitVec.eq_of_getLsbD_eq
  intro i hi
  simp only [opRow, eventWord, BitVec.getLsbD_and, BitVec.getLsbD_append]
  interval_cases i <;> simp

theorem Encoding.acqWrite : Encoding.Statement .acqWrite := Encoding.of_encode rfl (by decide)

theorem Encoding.acqDisplay : Encoding.Statement .acqDisplay := Encoding.of_encode rfl (by decide)

theorem Encoding.clearBuffers : Encoding.Statement .clearBuffers := Encoding.of_encode rfl (by decide)

theorem Encoding.setBuffering (en : Bool) : Encoding.Statement (.setBuffering en) :=
  Encoding.of_encode rfl (by cases en <;> decide)

theorem Encoding.reloadSource (b : BufId) : Encoding.Statement (.reloadSource b) :=
  Encoding.of_encode rfl (by rw [fieldOp_eventWordSel]; exact eventWordSel_match (.inr rfl) b)

theorem Encoding.classify (y : Nat) : Encoding.Statement (.classify y) := Encoding.of_none rfl

theorem Encoding.select (y : Nat) : Encoding.Statement (.select y) := Encoding.of_none rfl

theorem Encoding.nextY (y : Nat) : Encoding.Statement (.nextY y) := Encoding.of_none rfl

theorem Encoding.lane (n : BitVec 4) : Encoding.Statement (.lane n) := Encoding.of_none rfl

theorem Encoding.addr (b : BufId) : Encoding.Statement (.addr b) := Encoding.of_none rfl

theorem Encoding.plainLine (k : Nat) : Encoding.Statement (.plainLine k) := Encoding.of_none rfl

theorem Encoding.vsyncLine (k : Nat) : Encoding.Statement (.vsyncLine k) := Encoding.of_none rfl

end Sys2Proof.Laws
end

