-- ==== Sys2Proof/Machine/Text.lean ====
section
/-! DEFINITION. The textual form of operations and results in the spec's examples and programs (30_encoding.md rule R85). -/

namespace Sys2Proof.Machine

/-- A number in hexadecimal, capital digits, at least `width` of them, written `0x...`. -/
def hexText (width n : Nat) : String :=
  let digits := (Nat.toDigits 16 n).map Char.toUpper
  "0x" ++ String.ofList (List.replicate (width - digits.length) '0' ++ digits)

/-- `TPL(k)` or `PREP(r)` (R80, R85). -/
def bufText : BufId → String
  | .tpl k => "TPL(" ++ toString k.toNat ++ ")"
  | .prep r => "PREP(" ++ toString r.toNat ++ ")"

/-- One operation: the mnemonic in capitals, operands separated by commas (R85). -/
def instrText : Instr → String
  | .reset => "RESET"
  | .arm b => "ARM " ++ bufText b
  | .stream => "STREAM"
  | .lineEnd => "LINE_END"
  | .step => "STEP"
  | .palRead idx => "PAL_READ " ++ hexText 2 idx.toNat
  | .palBuild => "PAL_BUILD"
  | .tplBuild => "TPL_BUILD"
  | .rebuildRow slot row => "REBUILD_ROW " ++ toString slot.toNat ++ ", " ++ toString row.toNat
  | .rebuild slot => "REBUILD " ++ toString slot.toNat
  | .fbWrite slot off val => "FB_WRITE " ++ toString slot.toNat ++ ", " ++ hexText 4 off.toNat ++ ", " ++ hexText 2 val.toNat
  | .acqWrite => "ACQ_WRITE"
  | .acqDisplay => "ACQ_DISPLAY"
  | .clearBuffers => "CLEAR_BUFFERS"
  | .setBuffering en => "SET_BUFFERING " ++ (if en then "1" else "0")
  | .reloadSource b => "RELOAD_SOURCE " ++ bufText b
  | .classify y => "CLASSIFY(" ++ toString y ++ ")"
  | .select y => "SELECT(" ++ toString y ++ ")"
  | .nextY y => "NEXT_Y(" ++ toString y ++ ")"
  | .lane n => "LANE(" ++ hexText 1 n.toNat ++ ")"
  | .addr b => "ADDR(" ++ bufText b ++ ")"
  | .plainLine k => "PLAIN_LINE(" ++ toString k ++ ")"
  | .vsyncLine k => "VSYNC_LINE(" ++ toString k ++ ")"

/-- A slot result: the slot, or `none` for code 3 (R78, R85). -/
def slotText (code : BitVec 2) : String := if code = noSlotCode then "none" else toString code.toNat

/-- The name of a region (R76). -/
def regionText : Region → String
  | .visible => "VISIBLE"
  | .frontPorch => "FRONT_PORCH"
  | .vsync => "VSYNC"
  | .backPorch => "BACK_PORCH"

/-- A returned value. -/
def resultText : OpResult → String
  | .slot code => slotText code
  | .palette w => hexText 4 w.toNat
  | .region r => regionText r
  | .buffer b => bufText b
  | .scanline y => toString y
  | .sample v => hexText 2 v.toNat
  | .pointer p => hexText 8 p.toNat

/-- An operation with its result, written after `->` (R85). -/
def lineText (i : Instr) (r : Option OpResult) : String :=
  match r with
  | some v => instrText i ++ " -> " ++ resultText v
  | none => instrText i

end Sys2Proof.Machine
end

