-- ==== Sys2Proof/Tests/Slice0.lean ====
section
/-! SUPPORT. The model's own tests: ill-formed terms for each well-formedness check, event words written out from
30_encoding.md, single steps with results taken from 95_test_vectors.md, and a witness for the hypotheses of each statement. -/

namespace Sys2Proof.Tests

open Sys2Proof.Machine Sys2Proof.Laws

/-! ### Well-formedness: one ill-formed term for each check -/

theorem test_wf_ref : Config.ref.wf = true := by decide +kernel

/-- 44_host_rotation.md rule R191: one slot with buffering off. -/
theorem test_wf_one_slot : Config.wf { Config.ref with fbSlots := 1, bufferingInit := false } = true := by decide +kernel

/-- 95_test_vectors.md V40-2: the largest visible height, and no visible line at all. -/
theorem test_wf_heights :
    Config.wf { Config.ref with vVisible := 256, vFrontPorch := 2, vSyncPulse := 3, vBackPorch := 4, wholeFrame := 265 } = true ∧
    Config.wf { Config.ref with vVisible := 0, vFrontPorch := 1, vSyncPulse := 1, vBackPorch := 1, wholeFrame := 3 } = true := by
  decide +kernel

theorem test_wf_strategy : Config.wf { Config.ref with strategy := .legacy } = false := by decide +kernel

theorem test_wf_line_holds : Config.wf { Config.ref with hBackPorch := 41 } = false := by decide +kernel

theorem test_wf_frame_holds : Config.wf { Config.ref with vBackPorch := 4 } = false := by decide +kernel

theorem test_wf_divider_pos : Config.wf { Config.ref with divider := 0 } = false := by decide +kernel

theorem test_wf_line_divides : Config.wf { Config.ref with wholeLine := 338 } = false := by decide +kernel

theorem test_wf_pulse_divides :
    Config.wf { Config.ref with divider := 2, wholeLine := 672, hSyncPulse := 64 } = true ∧
    Config.wf { Config.ref with divider := 2, wholeLine := 672, hSyncPulse := 63 } = false := by decide +kernel

theorem test_wf_frame_pos :
    Config.wf { Config.ref with vVisible := 0, vFrontPorch := 0, vSyncPulse := 0, vBackPorch := 0, wholeFrame := 0 } = false := by
  decide +kernel

theorem test_wf_line_pos :
    Config.wf { Config.ref with
      hVisible := 0, hFrontPorch := 0, hSyncPulse := 0, hBackPorch := 0, wholeLine := 0 } = false := by decide +kernel

/-- 95_test_vectors.md V40-2: 257 visible lines are refused. -/
theorem test_wf_visible_fits :
    Config.wf { Config.ref with vVisible := 257, vFrontPorch := 2, vSyncPulse := 3, vBackPorch := 3, wholeFrame := 265 } = false := by
  decide +kernel

theorem test_wf_patterns_distinct : Config.wf { Config.ref with hSync := 0x00 } = false := by decide +kernel

theorem test_wf_patterns_sync : Config.wf { Config.ref with hSync := 0x41 } = false := by decide +kernel

theorem test_wf_masks_disjoint :
    Config.wf { Config.ref with syncMask := 0xC1, rgbiExpand := Vector.replicate 16 0 } = false := by decide +kernel

theorem test_wf_masks_cover : Config.wf { Config.ref with syncMask := 0x80 } = false := by decide +kernel

theorem test_wf_polarity_sync : Config.wf { Config.ref with syncPolarity := 0xC1 } = false := by decide +kernel

theorem test_wf_expand_color : Config.wf { Config.ref with rgbiExpand := Vector.replicate 16 0x40 } = false := by decide +kernel

theorem test_wf_pulse_fits : Config.wf { Config.ref with hsStart := 305 } = false := by decide +kernel

theorem test_wf_active_fits :
    Config.wf { Config.ref with hsStart := 0, activeStart := 80 } = true ∧
    Config.wf { Config.ref with hsStart := 0, activeStart := 82 } = false := by decide +kernel

theorem test_wf_active_even : Config.wf { Config.ref with activeStart := 1 } = false := by decide +kernel

theorem test_wf_active_clear :
    Config.wf { Config.ref with activeStart := 8 } = true ∧ Config.wf { Config.ref with activeStart := 10 } = false := by
  decide +kernel

theorem test_wf_addr_aligned :
    Config.wf { Config.ref with tplAddr := #v[0x20000000, 0x20000150, 0x200002A0, 0x200003F2] } = false := by decide +kernel

theorem test_wf_addr_fits :
    Config.wf { Config.ref with tplAddr := #v[0x20000000, 0x20000150, 0x200002A0, 0xFFFFFF00] } = false := by decide +kernel

theorem test_wf_addr_apart :
    Config.wf { Config.ref with tplAddr := #v[0x20000000, 0x2000014C, 0x200002A0, 0x200003F0] } = false := by decide +kernel

theorem test_wf_slots : Config.wf { Config.ref with fbSlots := 2 } = false := by decide +kernel

/-- 00_scope.md rule R6: BUFFERING_INIT has no constraint. -/
theorem test_wf_one_slot_buffered : Config.wf { Config.ref with fbSlots := 1 } = true := by decide +kernel

/-- Operands out of their ranges, and the last value inside each. -/
theorem test_wf_instr :
    Instr.wf .ref (.rebuildRow 3 0) = false ∧ Instr.wf .ref (.rebuildRow 2 0) = true ∧
    Instr.wf .ref (.rebuild 3) = false ∧ Instr.wf { Config.ref with fbSlots := 1 } (.rebuild 1) = false ∧
    Instr.wf .ref (.fbWrite 3 0 0) = false ∧ Instr.wf { Config.ref with fbSlots := 1 } (.fbWrite 1 0 0) = false ∧
    Instr.wf .ref (.classify 10) = false ∧ Instr.wf .ref (.classify 9) = true ∧
    Instr.wf .ref (.select 10) = false ∧ Instr.wf .ref (.nextY 10) = false ∧
    Instr.wf .ref (.plainLine 336) = false ∧ Instr.wf .ref (.plainLine 335) = true ∧
    Instr.wf .ref (.vsyncLine 336) = false := by decide +kernel

/-! ### Event words written out field by field (30_encoding.md rules R77, R81, R82) -/

theorem test_decode_reset : decode (0b0000#4 ++ 0#28) = .ok .reset := by decide

theorem test_decode_arm_tpl : decode (0b0001#4 ++ 0#19 ++ 0b1#1 ++ 0b000000#6 ++ 0b10#2) = .ok (.arm .imageA) := by decide

theorem test_decode_arm_prep : decode (0b0001#4 ++ 0#19 ++ 0b0#1 ++ 0b11111111#8) = .ok (.arm (.prep 255)) := by decide

theorem test_decode_stream : decode (0b0010#4 ++ 0#28) = .ok .stream := by decide

theorem test_decode_line_end : decode (0b0011#4 ++ 0#28) = .ok .lineEnd := by decide

theorem test_decode_step : decode (0b0100#4 ++ 0#28) = .ok .step := by decide

theorem test_decode_pal_read : decode (0b0101#4 ++ 0#20 ++ 0b11110111#8) = .ok (.palRead 0xF7) := by decide

theorem test_decode_pal_build : decode (0b0110#4 ++ 0#28) = .ok .palBuild := by decide

theorem test_decode_tpl_build : decode (0b0111#4 ++ 0#28) = .ok .tplBuild := by decide

theorem test_decode_rebuild_row :
    decode (0b1000#4 ++ 0b00#2 ++ 0b10#2 ++ 0#16 ++ 0b10000011#8) = .ok (.rebuildRow 2 0x83) := by decide

theorem test_decode_rebuild : decode (0b1001#4 ++ 0b00#2 ++ 0b01#2 ++ 0#24) = .ok (.rebuild 1) := by decide

theorem test_decode_fb_write :
    decode (0b1010#4 ++ 0b00#2 ++ 0b01#2 ++ 0b0#1 ++ 0b100000110000001#15 ++ 0b11110111#8) = .ok (.fbWrite 1 0x4181 0xF7) := by
  decide

theorem test_decode_acq_write : decode (0b1011#4 ++ 0#28) = .ok .acqWrite := by decide

theorem test_decode_acq_display : decode (0b1100#4 ++ 0#28) = .ok .acqDisplay := by decide

theorem test_decode_clear_buffers : decode (0b1101#4 ++ 0#28) = .ok .clearBuffers := by decide

theorem test_decode_set_buffering :
    decode (0b1110#4 ++ 0#27 ++ 0b1#1) = .ok (.setBuffering true) ∧
    decode (0b1110#4 ++ 0#27 ++ 0b0#1) = .ok (.setBuffering false) := by decide

theorem test_decode_reload_source :
    decode (0b1111#4 ++ 0#19 ++ 0b1#1 ++ 0b000000#6 ++ 0b01#2) = .ok (.reloadSource .vsync) := by decide

/-- 30_encoding.md rule R83(a), (b), (c): a stray bit in each unused field, slot 3, a reserved selector. -/
theorem test_decode_reserved :
    decode 0x00000001 = .error .bits ∧ decode 0x20000100 = .error .bits ∧ decode 0x50000100 = .error .bits ∧
    decode 0x80000100 = .error .bits ∧ decode 0x84000000 = .error .bits ∧ decode 0xA0800000 = .error .bits ∧
    decode 0xE0000002 = .error .bits ∧ decode 0x10000200 = .error .bits ∧
    decode 0x83000000 = .error .slot ∧ decode 0x93000000 = .error .slot ∧ decode 0xA3000000 = .error .slot ∧
    decode 0x10000104 = .error .selector ∧ decode 0xF0000180 = .error .selector := by decide

/-- A table row's bits are the whole 32-bit word (30_encoding.md rule R84). -/
theorem test_decode_table_word :
    decodeTableWord 32 0xA00180F7 = some (.fbWrite 0 0x0180 0xF7) ∧ decodeTableWord 32 0x83000000 = none := by decide

/-! ### Single steps (95_test_vectors.md) -/

/-- What a next state shows; none where the answer is no next state. -/
def see {α : Type} (f : State → α) : Answer → Option α
  | .next t => some (f t)
  | .fault _ => none
  | .refused _ => none

/-- An armed chain at word n of buffer b. -/
def streaming (b : BufId) (n : Nat) (s : State) : State :=
  { s with dmaArmed := true, dmaBase := addr s.cfg b, dmaCnt := n }

/-- The scan-out state of V40-3. -/
def atLine (y : Nat) : State := { State.reset with y := y, irqPending := true }

/-- The rotation state `in out ready first_frame` of V44. -/
def rotation (i o : Fin 3) (r0 r1 r2 f : Bool) : State :=
  { State.reset with inIndex := i, outIndex := o, ready := ⟨r0, r1, r2⟩, firstFrame := f }

/-- The rotation registers and the result code, as V44 writes them. -/
structure Shown where
  inIndex : Fin 3
  outIndex : Fin 3
  ready : Ready
  firstFrame : Bool
  result : Option OpResult
  deriving DecidableEq

def seeRotation (t : State) : Shown := ⟨t.inIndex, t.outIndex, t.ready, t.firstFrame, t.result⟩

/-- V70-1. -/
theorem test_reset :
    see (fun t => (t.y, t.srcPtr, t.irqPending, t.dmaArmed, t.dmaCnt, t.bufferingMode)) (exec .reset (atLine 9))
      = some (0, 0x20001000, false, false, 0, true) := by decide

/-- V70-1: no memory survives, the history is empty, the fault is gone. -/
theorem test_reset_memory :
    see (fun t => ([fbByte t 1 5, lineByte t 0x20001000, lineByte t 0x20000108], t.fault, t.outStream))
        (exec .reset (raiseFault (.uninitLine 4) (emitWord 7 (storeFb 1 5 [0x33] (storeLine 0x20001000 [1] State.reset)))))
      = some ([none, none, some 0x80], none, []) := by decide +kernel

/-- V42-2, rows 1 and 2. -/
theorem test_arm :
    see (fun t => (t.dmaBase, t.dmaCnt, t.dmaArmed, t.srcPtr)) (exec (.arm .imageA) State.reset)
      = some (0x200002A0, 0, true, 0x20001000) ∧
    see (fun t => t.dmaBase) (exec (.arm (.prep 3)) State.reset) = some 0x200013F0 := by decide

/-- V42-2, row 3. -/
theorem test_arm_twice : exec (.arm .imageA) (streaming .blank 0 State.reset) = .refused (.notEnabled .alreadyArmed) := rfl

/-- V42-2: words 0, 66, 83 of the blank and 73 of the vertical-sync template. -/
theorem test_stream :
    see (fun t => (t.outStream, t.dmaCnt)) (exec .stream (streaming .blank 0 State.reset)) = some ([0xC0C0C0C0], 1) ∧
    see (fun t => (t.outStream, t.dmaCnt)) (exec .stream (streaming .blank 66 State.reset)) = some ([0x80808080], 67) ∧
    see (fun t => (t.outStream, t.dmaCnt)) (exec .stream (streaming .vsync 73 State.reset)) = some ([0x00000000], 74) ∧
    see (fun t => (t.outStream, t.dmaCnt)) (exec .stream (streaming .blank 83 State.reset)) = some ([0xC0C0C0C0], 84) := by
  decide +kernel

/-- V42-2, last row, and `STREAM` at the end of the line. -/
theorem test_stream_unwritten :
    see (fun t => (t.fault, t.dmaCnt, t.outStream)) (exec .stream (streaming (.prep 0) 0 State.reset))
      = some (some (.uninitLine 0x20001000), 0, []) ∧
    exec .stream (streaming .blank 84 State.reset) = .refused (.notEnabled .lineComplete) := ⟨by decide +kernel, rfl⟩

/-- V42-2: LINE_END at the end of a line, and not before it. -/
theorem test_line_end :
    see (fun t => (t.y, t.srcPtr, t.dmaBase, t.dmaCnt, t.irqPending))
        (exec .lineEnd { streaming (.prep 0) 84 State.reset with y := 1, srcPtr := 0x20001150 })
      = some (1, 0x20001150, 0x20001150, 0, true) ∧
    exec .lineEnd (streaming (.prep 0) 83 State.reset) = .refused (.notEnabled .lineIncomplete) := ⟨by decide, rfl⟩

/-- V40-3. -/
theorem test_step :
    see (fun t => (t.y, t.srcPtr, t.irqPending)) (exec .step (atLine 0)) = some (1, 0x20001150, false) ∧
    see (fun t => (t.y, t.srcPtr, t.irqPending)) (exec .step (atLine 3)) = some (4, 0x20000000, false) ∧
    see (fun t => (t.y, t.srcPtr, t.irqPending)) (exec .step (atLine 4)) = some (5, 0x20000150, false) ∧
    see (fun t => (t.y, t.srcPtr, t.irqPending)) (exec .step (atLine 6)) = some (7, 0x20000000, false) ∧
    see (fun t => (t.y, t.srcPtr, t.irqPending)) (exec .step (atLine 9)) = some (0, 0x20001000, false) := by decide

/-- V40-3: without an interrupt STEP is not enabled. -/
theorem test_step_waits : exec .step State.reset = .refused (.notEnabled .noInterrupt) := rfl

/-- V41-2: PAL_READ. -/
theorem test_pal_read :
    see (fun t => t.result) (exec (.palRead 0xF7) State.reset) = some (some (.palette 0xFFEA)) ∧
    see (fun t => t.result) (exec (.palRead 0x9C) State.reset) = some (some (.palette 0xC3F0)) := by decide +kernel

/-- V41-2: PAL_BUILD, whatever the entry held. -/
theorem test_pal_build :
    see (fun t => (palEntry t 0x12, palEntry t 0x7F)) (exec .palBuild { State.reset with pal := [(0x12, 0xFFFF)] })
      = some (0xC2C8, 0xEAFF) := by decide +kernel

/-- V43-2, whatever the buffer held. -/
theorem test_tpl_build :
    see (fun t => (bufWord t .blank 0, bufWord t .blank 66, bufWord t .vsync 65, bufWord t .vsync 66, bufWord t .imageB 74))
        (exec .tplBuild { State.reset with line := [(0x20000000, 0x11)] })
      = some (some 0xC0C0C0C0, some 0x80808080, some 0x40404040, some 0x00000000, some 0xC0C0C0C0) := by decide +kernel

/-- Row 3 of slot 0 as V43-3 has it. -/
def row3 : State := storeFb 0 0x180 ([0xF7, 0x12] ++ List.replicate 125 0 ++ [0x9C]) State.reset

/-- V43-3. -/
theorem test_rebuild_row :
    see (fun t => ([0, 1, 63, 64, 66, 83].map (bufWord t (.prep 3)), t.rb)) (exec (.rebuildRow 0 3) row3)
      = some ([some 0xC2C8FFEA, some 0xC0C0C0C0, some 0xC3F0C0C0, some 0xC0C0C0C0, some 0x80808080, some 0xC0C0C0C0], none) := by
  decide +kernel

/-- V43-5. -/
theorem test_rebuild_row_unwritten :
    see (fun t => (t.fault, bufWord t (.prep 0) 0, bufWord t (.prep 0) 66)) (exec (.rebuildRow 0 0) (storeFb 0 0 [0x11] State.reset))
      = some (some (.uninitFb 0 0 1), some 0xC0C0C2C2, some 0x80808080) := by decide +kernel

/-- V43-5 for REBUILD: the first row stops it. -/
theorem test_rebuild_unwritten :
    see (fun t => (t.fault, bufWord t (.prep 0) 0, bufWord t (.prep 1) 0)) (exec (.rebuild 0) (storeFb 0 0 [0x11] State.reset))
      = some (some (.uninitFb 0 0 1), some 0xC0C0C2C2, none) := by decide +kernel

/-- V44-6: FB_WRITE, and the two pixels of the byte. -/
theorem test_fb_write :
    see (fun t => (fbByte t 0 384, pixel t 0 0 3, pixel t 0 1 3, fbByte t 0 385)) (exec (.fbWrite 0 0x0180 0xF7) State.reset)
      = some (some 0xF7, some 0x7, some 0xF, none) ∧
    see (fun t => (pixel t 2 254 255, pixel t 2 255 255, fbByte t 1 0)) (exec (.fbWrite 2 0x7FFF 0xFF) State.reset)
      = some (some 0xF, some 0xF, none) := by decide +kernel

/-- V44-1, rows 1, 3, 5, 6. -/
theorem test_acq_write :
    see seeRotation (exec .acqWrite (rotation 0 0 false false false true))
      = some ⟨0, 0, ⟨false, false, false⟩, true, some (.slot 3)⟩ ∧
    see seeRotation (exec .acqWrite (rotation 0 2 false true false false))
      = some ⟨1, 2, ⟨false, true, false⟩, false, some (.slot 1)⟩ ∧
    see seeRotation (exec .acqWrite (rotation 1 0 false true true false))
      = some ⟨2, 0, ⟨false, false, true⟩, false, some (.slot 2)⟩ ∧
    see seeRotation (exec .acqWrite (rotation 2 2 true true false false))
      = some ⟨0, 2, ⟨true, true, false⟩, false, some (.slot 0)⟩ := by decide

/-- REF with one slot, BUFFERING_INIT left on. -/
def oneSlotBuffered : WfConfig := ⟨{ Config.ref with fbSlots := 1 }, (Config.wf_iff _).mp test_wf_one_slot_buffered⟩

/-- V44-2, the unreachable `+2` branch; V44-4, buffering off; 44_host_rotation.md rule R191, one slot. -/
theorem test_acq_write_second :
    see seeRotation (exec .acqWrite (rotation 0 0 false false true false))
      = some ⟨2, 0, ⟨false, false, true⟩, false, some (.slot 2)⟩ ∧
    see seeRotation (exec .acqWrite { rotation 0 1 true true false true with bufferingMode := false })
      = some ⟨0, 1, ⟨true, true, false⟩, true, some (.slot 0)⟩ ∧
    see seeRotation (exec .acqWrite { rotation 0 1 true true false true with config := oneSlotBuffered })
      = some ⟨0, 1, ⟨true, true, false⟩, true, some (.slot 0)⟩ := by decide

/-- V44-2, rows 1, 2, 4, 7. -/
theorem test_acq_display :
    see seeRotation (exec .acqDisplay (rotation 0 0 false false false true))
      = some ⟨0, 0, ⟨false, false, false⟩, false, some (.slot 0)⟩ ∧
    see seeRotation (exec .acqDisplay (rotation 0 0 false false false false))
      = some ⟨0, 1, ⟨true, false, false⟩, false, some (.slot 1)⟩ ∧
    see seeRotation (exec .acqDisplay (rotation 1 2 false true false false))
      = some ⟨1, 0, ⟨false, true, true⟩, false, some (.slot 0)⟩ ∧
    see seeRotation (exec .acqDisplay (rotation 1 0 false true true false))
      = some ⟨1, 0, ⟨false, true, true⟩, false, some (.slot 0)⟩ := by decide

/-- V44-2, the unreachable `+2` branch; V44-4, buffering off; 44_host_rotation.md rule R191, one slot. -/
theorem test_acq_display_second :
    see seeRotation (exec .acqDisplay (rotation 0 0 false true false false))
      = some ⟨0, 2, ⟨true, true, false⟩, false, some (.slot 2)⟩ ∧
    see seeRotation (exec .acqDisplay { rotation 0 0 false false false true with bufferingMode := false })
      = some ⟨0, 0, ⟨false, false, false⟩, true, some (.slot 0)⟩ ∧
    see seeRotation (exec .acqDisplay { rotation 0 0 false false false false with config := oneSlotBuffered })
      = some ⟨0, 0, ⟨false, false, false⟩, false, some (.slot 0)⟩ := by decide

/-- V44-5. -/
theorem test_clear_buffers :
    see (fun t => (seeRotation t, t.bufferingMode))
        (exec .clearBuffers (storeFb 1 5 [0x33] (rotation 1 2 false true false false)))
      = some (⟨0, 0, ⟨false, false, false⟩, true, none⟩, true) := by decide +kernel

/-- V44-4, and the refusal of 44_host_rotation.md rule R186. -/
theorem test_set_buffering :
    see (fun t => t.bufferingMode) (exec (.setBuffering false) State.reset) = some false ∧
    see (fun t => t.bufferingMode) (exec (.setBuffering true) { State.reset with bufferingMode := false }) = some true := by
  decide

/-- V42-2: RELOAD_SOURCE. -/
theorem test_reload_source :
    see (fun t => (t.srcPtr, t.y)) (exec (.reloadSource .vsync) { State.reset with y := 2 }) = some (0x20000150, 2) := by decide

/-- V40-1. -/
theorem test_classify :
    [0, 3, 4, 5, 6, 7, 9].map (fun y => see (fun t => t.result) (exec (.classify y) State.reset))
      = [Region.visible, .visible, .frontPorch, .vsync, .vsync, .backPorch, .backPorch].map fun r => some (some (.region r)) := by
  decide

/-- V40-1. -/
theorem test_select :
    [0, 3, 4, 5, 6, 7, 9].map (fun y => see (fun t => t.result) (exec (.select y) State.reset))
      = [BufId.prep 0, .prep 3, .tpl 0, .tpl 1, .tpl 1, .tpl 0, .tpl 0].map fun b => some (some (.buffer b)) := by decide

/-- V40-1. -/
theorem test_next_y :
    [0, 3, 9].map (fun y => see (fun t => t.result) (exec (.nextY y) State.reset))
      = [1, 4, 0].map fun y => some (some (.scanline y)) := by decide

/-- V41-1. -/
theorem test_lane :
    [0x0, 0x1, 0x7, 0x8, 0x9, 0xF].map (fun n => see (fun t => t.result) (exec (.lane n) State.reset))
      = [0xC0, 0xC2, 0xEA, 0xC0, 0xC3, 0xFF].map fun v => some (some (.sample v)) := by decide

/-- V42-1. -/
theorem test_addr :
    [BufId.tpl 0, .tpl 1, .tpl 2, .tpl 3, .prep 0, .prep 3, .prep 255].map
        (fun b => see (fun t => t.result) (exec (.addr b) State.reset))
      = [0x20000000, 0x20000150, 0x200002A0, 0x200003F0, 0x20001000, 0x200013F0, 0x20015EB0].map
          fun p => some (some (.pointer p)) := by decide +kernel

/-- V43-1. -/
theorem test_plain_line :
    [0, 255, 263, 264, 295, 296, 335].map (fun k => see (fun t => t.result) (exec (.plainLine k) State.reset))
      = [0xC0, 0xC0, 0xC0, 0x80, 0x80, 0xC0, 0xC0].map fun v => some (some (.sample v)) := by decide

/-- V43-1. -/
theorem test_vsync_line :
    [0, 255, 263, 264, 295, 296, 335].map (fun k => see (fun t => t.result) (exec (.vsyncLine k) State.reset))
      = [0x40, 0x40, 0x40, 0x00, 0x00, 0x40, 0x40].map fun v => some (some (.sample v)) := by decide

/-- The first step after reset performs the word placed, and passes a word whose agent is not enabled. -/
theorem test_step_performs :
    see (fun t => (t.dmaBase, t.schedule)) (step (State.reset.withFetchWord 32 0x10000102)) = some (0x200002A0, []) ∧
    see (fun t => (t.y, t.schedule)) (step (State.reset.withFetchWord 32 0x40000000)) = some (0, []) := by decide

/-- A reserved word is refused (30_encoding.md rule R83). -/
theorem test_step_reserved : step (State.reset.withFetchWord 32 0x83000000) = .refused (.reservedWord .slot) := rfl

/-- 43_line_buffers.md rule R166: the last stamp and the first palette store of a rebuild. -/
theorem test_micro_steps :
    see (fun t => (bufSample t (.prep 3) 335, bufSample t (.prep 3) 334, t.rb))
        (rebuildMicro 0 3 { row3 with rb := some ⟨0, 3, 335⟩ }) = some (some 0xC0, none, some ⟨0, 3, 336⟩) ∧
    see (fun t => (bufSample t (.prep 3) 0, bufSample t (.prep 3) 1, bufSample t (.prep 3) 2, t.rb))
        (rebuildMicro 0 3 { row3 with rb := some ⟨0, 3, 336⟩ }) = some (some 0xEA, some 0xFF, none, some ⟨0, 3, 337⟩) := by
  decide +kernel

/-- 43_line_buffers.md rule R166: after the last micro-step no rebuild is in progress. -/
theorem test_micro_last :
    see (fun t => (bufSample t (.prep 3) 254, bufSample t (.prep 3) 255, t.rb))
        (rebuildMicro 0 3 { row3 with rb := some ⟨0, 3, 463⟩ }) = some (some 0xF0, some 0xC3, none) := by decide +kernel

/-- The spec's own spellings (95_test_vectors.md P3, P4; 30_encoding.md rule R85). -/
theorem test_text :
    instrText (.fbWrite 0 0x0180 0xF7) = "FB_WRITE 0, 0x0180, 0xF7" ∧ instrText (.arm .imageA) = "ARM TPL(2)" ∧
    lineText (.palRead 0x9C) (some (.palette 0xC3F0)) = "PAL_READ 0x9C -> 0xC3F0" ∧
    lineText .acqWrite (some (.slot 3)) = "ACQ_WRITE -> none" := by decide +kernel

/-! ### Witnesses: states and operands that meet the hypotheses of the statements -/

/-- REF with one slot and buffering off. -/
def oneSlot : WfConfig := ⟨{ Config.ref with fbSlots := 1, bufferingInit := false }, (Config.wf_iff _).mp test_wf_one_slot⟩

/-- REF with divider 2 and a line twice as long. -/
def halfRate : WfConfig :=
  ⟨{ Config.ref with divider := 2, wholeLine := 672, hSyncPulse := 64 }, (Config.wf_iff _).mp test_wf_pulse_divides.1⟩

/-- Every register of the reference reset state, with the four visible prepared lines written. -/
def lit : State := storeLine 0x20001000 (List.replicate 1344 0xC0) State.reset

/-- The same, armed at the start of a line of TPL(2). -/
def litArmed : State := streaming .imageA 0 lit

theorem ref_lineSamples : State.reset.cfg.lineSamples = 336 := by decide

theorem ref_prep : ∀ r : Byte, (addr Config.ref (.prep r)).toNat = 0x20001000 + 336 * r.toNat := by decide +kernel

theorem ref_tpl : ∀ t : BitVec 2, (addr Config.ref (.tpl t)).toNat ≤ 0x200003F0 := by decide

/-- The written lines lie apart from the templates. -/
theorem lit_tpl (t : BitVec 2) {k : Nat} (h : k < 336) : bufSample lit (.tpl t) k = some (tplSample Config.ref t k) := by
  have ha := ref_tpl t
  have he : lineInitial Config.ref ((addr Config.ref (.tpl t)).toNat + k) = some (tplSample Config.ref t k) :=
    lineInitial_tpl WfConfig.ref.ok h
  unfold bufSample lit
  rw [lineByte_storeLine, dif_neg]
  · exact he
  · change ¬ (_ ≤ (addr Config.ref (.tpl t)).toNat + k ∧ _)
    omega

theorem lit_prep (r : Byte) (h : r.toNat < 4) : LineReady lit (.prep r) := by
  intro k hk
  have hk : k < 336 := hk
  have hr := ref_prep r
  unfold bufSample lit
  rw [lineByte_storeLine, dif_pos]
  · rfl
  · change _ ≤ (addr Config.ref (.prep r)).toNat + k ∧ (addr Config.ref (.prep r)).toNat + k < _
    rw [List.length_replicate]
    omega

theorem lit_templates : TemplatesBuilt lit := fun t _ hk => lit_tpl t hk

theorem lit_tpl_ready (t : BitVec 2) : LineReady lit (.tpl t) := by
  intro k hk
  rw [lit_tpl t hk]
  rfl

theorem lit_palette : PaletteBuilt lit := fun _ => palEntry_of_unlisted rfl

theorem lit_inv : Inv lit where
  yRange := by decide
  cntRange := Nat.zero_le _
  srcIsBuf := ⟨.prep 0, rfl⟩
  baseIsBuf := by intro h; cases h
  irqArmed := by intro h; cases h
  rbRange := by intro r h; cases h
  oneSlotKept := by decide
  canonical := canonicalMemory_storeLine (canonicalMemory_reset _) _ _
  palette := lit_palette
  templates := lit_templates

theorem lit_boot : BootReady lit := ⟨lit_palette, lit_templates, fun r h => lit_prep r h⟩

theorem litArmed_inv : Inv litArmed :=
  { lit_inv with
    baseIsBuf := fun _ => ⟨.imageA, rfl⟩
    irqArmed := fun _ => rfl
    palette := fun _ => palEntry_of_unlisted rfl
    templates := fun t _ hk => lit_tpl t hk }

theorem litArmed_ready : StreamReady litArmed :=
  ⟨litArmed_inv, ⟨litArmed_inv.palette, litArmed_inv.templates, fun r h => lit_prep r h⟩,
    ⟨.prep 0, rfl, lit_prep 0 (by decide)⟩, fun _ => ⟨.imageA, rfl, lit_tpl_ready 2⟩⟩

/-- STREAM is enabled there. -/
theorem litArmed_stream : ∃ t, exec .stream litArmed = .next t := by
  have hc : litArmed.dmaCnt < litArmed.cfg.lineWords := by decide
  have hm : wordMapped litArmed.cfg (streamAddr litArmed) = true :=
    wordMapped_of_inBuf WfConfig.ref.ok (b := .imageA) (w := 0) hc
  cases h : lineWord litArmed (streamAddr litArmed) with
  | some w => exact ⟨_, execStream_next.mpr ⟨rfl, rfl, hc, hm, .inl ⟨w, h, rfl⟩⟩⟩
  | none => exact ⟨_, execStream_next.mpr ⟨rfl, rfl, hc, hm, .inr ⟨h, rfl⟩⟩⟩

/-- Row 3 of slot 0, columns below c written. -/
def written (c : Nat) : State := storeFb 0 (fbOffset 3 0) (List.replicate c 0xF7) State.reset

theorem written_byte {c col : Nat} (h : col < 128) :
    fbByte (written c) 0 (fbOffset 3 col) = if col < c then some 0xF7 else none := by
  unfold written
  rw [fbByte_storeFb]
  by_cases hc : col < c
  · rw [if_pos hc, dif_pos (by rw [List.length_replicate]; simp only [fbKey, fbOffset]; omega)]
    simp
  · rw [if_neg hc, dif_neg (by rw [List.length_replicate]; simp only [fbKey, fbOffset]; omega)]
    rfl

/-- REF with the first n bytes of slot 0 written. -/
def filled (n : Nat) : State := storeFb 0 0 (List.replicate n 0) State.reset

theorem filled_byte {n off : Nat} (h : off < 32768) : fbByte (filled n) 0 off = if off < n then some 0 else none := by
  unfold filled
  rw [fbByte_storeFb]
  by_cases hn : off < n
  · rw [if_pos hn, dif_pos (by rw [List.length_replicate]; simp only [fbKey]; omega), List.getElem_replicate]
  · rw [if_neg hn, dif_neg (by rw [List.length_replicate]; simp only [fbKey]; omega)]
    rfl

/-- Slot 0 all zero. -/
def zeroed : State := filled 32768

theorem zeroed_byte {off : Nat} (h : off < 32768) : fbByte zeroed 0 off = some 0 := by
  rw [zeroed, filled_byte h, if_pos h]

theorem witness_DecodeOfEncodeIsIdentity :
    Config.ref.WellFormed ∧ (Instr.fbWrite 2 0x7FFF 0xFF).wf .ref = true ∧ encode (.fbWrite 2 0x7FFF 0xFF) = some 0xA27FFFFF :=
  ⟨WfConfig.ref.ok, by decide, by decide⟩

theorem witness_EncodeOfDecodeIsIdentity : decode 0x100001FF = .error .selector ∧ decode 0x10000103 = .ok (.arm .imageB) := by
  decide

theorem witness_ReservedWordsAreRefused :
    (0x00000001#32 &&& (opRow (fieldOp 0x00000001)).mask ≠ (opRow (fieldOp 0x00000001)).pattern) ∧
    (0x83000000#32 &&& (opRow (fieldOp 0x83000000)).mask = (opRow (fieldOp 0x83000000)).pattern ∧ fieldOp 0x83000000 = 0x8 ∧
      (0x83000000#32).extractLsb' 24 2 = 3) ∧
    (0x10000104#32 &&& (opRow (fieldOp 0x10000104)).mask = (opRow (fieldOp 0x10000104)).pattern ∧ fieldOp 0x10000104 = 0x1 ∧
      (0x10000104#32).extractLsb' 8 1 = 1 ∧ (0x10000104#32).extractLsb' 2 6 ≠ 0) ∧
    (0x82000000#32 &&& (opRow (fieldOp 0x82000000)).mask = (opRow (fieldOp 0x82000000)).pattern ∧
      ¬ ((0x82000000#32).extractLsb' 24 2 = 3) ∧ fieldOp 0x82000000 ≠ 0x1 ∧ fieldOp 0x82000000 ≠ 0xF) ∧
    decode 0x92000000 = .ok (.rebuild 2) ∧ (Instr.rebuild 2).wf (State.resetOf oneSlot).cfg = false ∧
    ((State.resetOf oneSlot).withFetchWord 32 0x92000000).schedule = [.event 0x92000000] ∧
    State.reset.cfg.fbSlots ≤ (3#2).toNat ∧ (State.resetOf oneSlot).cfg.fbSlots ≤ (1#2).toNat := by decide +kernel

theorem witness_OneOpcodeRowMatches :
    0x100001FF#32 &&& (opRow 1).mask = (opRow 1).pattern ∧ 0#32 &&& (opRow 0).mask = (opRow 0).pattern := by decide

/-- An address that lies in no line buffer. -/
theorem stream_unmapped : exec .stream { State.reset with dmaArmed := true, dmaBase := 0 } = .fault (.noLineBuffer 0) := by
  exact execStream_fault rfl rfl (by decide) (by decide +kernel)

/-- A next state, a passed turn, the model's fault and a refusal. -/
theorem witness_StepPerformsDecodedEvent :
    (decode 0x10000102 = .ok (.arm .imageA) ∧ ∃ t, exec (.arm .imageA) State.reset = .next t) ∧
    (decode 0x40000000 = .ok .step ∧ exec .step State.reset = .refused (.notEnabled .noInterrupt)) ∧
    (decode 0x20000000 = .ok .stream ∧
      exec .stream { State.reset with dmaArmed := true, dmaBase := 0 } = .fault (.noLineBuffer 0)) ∧
    (decode 0xE0000001 = .ok (.setBuffering true) ∧
      exec (.setBuffering true) (State.resetOf oneSlot) = .refused .oneSlotOnly) :=
  ⟨⟨by decide, _, rfl⟩, ⟨by decide, rfl⟩, ⟨by decide, stream_unmapped⟩, ⟨by decide, rfl⟩⟩

theorem witness_StepOnOtherTurns :
    State.reset.schedule = [] ∧
    (∃ t, (placeTurn (.micro 2 255) State.reset).schedule = [.micro 2 255] ∧ rebuildMicro 2 255 State.reset = .next t) ∧
    rebuildMicro 2 255 { State.reset with rb := some ⟨2, 254, 0⟩ } = .refused (.notEnabled .rebuildInProgress) :=
  ⟨rfl, ⟨_, rfl, rebuildMicro_next.mpr ⟨by decide, rfl, 0, rfl, rfl⟩⟩, rfl⟩

theorem witness_StepKeepsInvariant :
    ∃ t, Inv (placeTurn (.event 0x10000102) lit) ∧ step (placeTurn (.event 0x10000102) lit) = .next t := by
  refine ⟨_, ?_, rfl⟩
  exact { lit_inv with
    palette := fun _ => palEntry_of_unlisted rfl
    templates := fun t _ hk => lit_tpl t hk }

theorem witness_PointerFollowsScanline :
    PointerFollowsY State.reset ∧ (∃ t, exec .step (atLine 9) = .next t) ∧ (∃ t, exec (.palRead 0) State.reset = .next t) ∧
    ∃ t, rebuildMicro 0 0 State.reset = .next t := ⟨rfl, ⟨_, rfl⟩, ⟨_, rfl⟩, ⟨_, rfl⟩⟩

/-- The first and the last scanline of each region; for SelectorFollowsRegion too. -/
theorem witness_RegionsPartitionTheFrame :
    Config.ref.WellFormed ∧ (∀ y ∈ [0, 3, 4, 5, 6, 7, 9], y < Config.ref.wholeFrame) ∧
    [0, 3, 4, 5, 6, 7, 9].map (classify .ref) = [.visible, .visible, .frontPorch, .vsync, .vsync, .backPorch, .backPorch] :=
  ⟨WfConfig.ref.ok, by decide, by decide⟩

theorem witness_ScanlinesFormOneCycle : Config.ref.WellFormed ∧ 0 < Config.ref.wholeFrame ∧ 9 < Config.ref.wholeFrame :=
  ⟨WfConfig.ref.ok, by decide, by decide⟩

theorem witness_StepAdvancesAndPublishes :
    ((atLine 9).fault = none ∧ (atLine 9).irqPending = true ∧ (atLine 9).cfg.divider = 1 ∧ (atLine 9).y < (atLine 9).cfg.wholeFrame) ∧
    (raiseFault (.uninitLine 0) (atLine 0)).fault ≠ none ∧ (State.reset.fault = none ∧ State.reset.irqPending = false) ∧
    ((raiseIrq (State.resetOf halfRate)).fault = none ∧ (raiseIrq (State.resetOf halfRate)).irqPending = true ∧
      (raiseIrq (State.resetOf halfRate)).cfg.divider ≠ 1) ∧
    ((atLine 10).fault = none ∧ (atLine 10).irqPending = true ∧ (atLine 10).cfg.wholeFrame ≤ (atLine 10).y) := by
  decide

theorem witness_FunctionsReturnTheirValues :
    0 < State.reset.cfg.wholeFrame ∧ 9 < State.reset.cfg.wholeFrame ∧ 0 < State.reset.cfg.lineSamples ∧
    335 < State.reset.cfg.lineSamples := by decide

theorem witness_FunctionsStopOutsideTheirDomain :
    State.reset.cfg.wholeFrame ≤ 10 ∧ State.reset.cfg.lineSamples ≤ 336 := by decide

/-- For PaletteRoundTrip, PalBuildWritesTheTable, PalReadReturnsTheEntry, TplBuildWritesTheTemplates, ReloadSourcePublishes,
ClearBuffersZeroesTheFrames. -/
theorem witness_fault_free :
    State.reset.fault = none ∧ (∃ t, exec .palBuild State.reset = .next t) ∧ (∃ t, exec .clearBuffers State.reset = .next t) :=
  ⟨rfl, ⟨_, rfl⟩, ⟨_, rfl⟩⟩

theorem witness_RomContentIsConstant :
    (∃ t, PaletteBuilt lit ∧ TemplatesBuilt lit ∧ exec (.fbWrite 0 0 0) lit = .next t) ∧
    ∃ t, Inv lit ∧ rebuildMicro 0 0 lit = .next t :=
  ⟨⟨_, lit_palette, lit_templates, rfl⟩, ⟨_, lit_inv, rfl⟩⟩

theorem witness_ArmLoadsTheChain :
    (State.reset.fault = none ∧ State.reset.dmaArmed = false) ∧ (litArmed.fault = none ∧ litArmed.dmaArmed = true) :=
  ⟨⟨rfl, rfl⟩, ⟨rfl, rfl⟩⟩

/-- The first and the last word of a line; a word with an unwritten byte; the three ways to have no step. -/
theorem witness_StreamPutsOutTheWord :
    ((streaming .blank 0 State.reset).dmaCnt < 84 ∧
      [0, 1, 2, 3].map (fun j => lineByte (streaming .blank 0 State.reset) (0x20000000 + 4 * 0 + j))
        = [some 0xC0, some 0xC0, some 0xC0, some 0xC0]) ∧
    ((streaming .vsync 83 State.reset).dmaCnt < 84 ∧
      [0, 1, 2, 3].map (fun j => lineByte (streaming .vsync 83 State.reset) (0x20000150 + 4 * 83 + j))
        = [some 0x40, some 0x40, some 0x40, some 0x40]) ∧
    lineByte (streaming (.prep 255) 83 State.reset) (0x20015EB0 + 4 * 83 + 3) = none ∧
    (raiseFault (.uninitLine 0) (streaming .blank 0 State.reset)).fault ≠ none ∧ State.reset.dmaArmed = false ∧
    State.reset.cfg.lineWords ≤ (streaming .blank 84 State.reset).dmaCnt := by decide +kernel

theorem witness_StreamOutsideTheBuffersStops :
    ∃ s : State, s.fault = none ∧ s.dmaArmed = true ∧ s.dmaCnt < s.cfg.lineWords ∧
      ∃ j, j < 4 ∧ ∀ b, ¬ InBuf s.cfg b (s.dmaBase.toNat + 4 * s.dmaCnt + j) := by
  refine ⟨{ State.reset with dmaArmed := true, dmaBase := 0 }, rfl, rfl, by decide, 3, by omega, ?_⟩
  have h : ∀ a ∈ Config.ref.starts, 3 < a := by decide +kernel
  rintro b ⟨hb, _⟩
  exact absurd (h _ (addr_mem_starts Config.ref b)) (Nat.not_lt.mpr hb)

theorem witness_LineEndReloadsAndInterrupts :
    ((streaming .blank 84 State.reset).fault = none ∧ (streaming .blank 84 State.reset).dmaArmed = true ∧
      (streaming .blank 84 State.reset).dmaCnt = State.reset.cfg.lineWords) ∧
    (raiseFault (.uninitLine 0) (streaming .blank 84 State.reset)).fault ≠ none ∧ State.reset.dmaArmed = false ∧
    (streaming .blank 83 State.reset).dmaCnt ≠ State.reset.cfg.lineWords := by decide

theorem witness_LinePeriodStreamsTheBuffer :
    litArmed.fault = none ∧ litArmed.dmaArmed = true ∧ litArmed.dmaCnt = 0 ∧ litArmed.dmaBase = addr litArmed.cfg .imageA ∧
    LineReady litArmed .imageA := ⟨rfl, rfl, rfl, rfl, lit_tpl_ready 2⟩

theorem witness_MissedDeadlineRepeatsTheLine :
    (streaming .imageA 84 lit).fault = none ∧ (streaming .imageA 84 lit).dmaArmed = true ∧
    (streaming .imageA 84 lit).dmaCnt = (streaming .imageA 84 lit).cfg.lineWords ∧
    (streaming .imageA 84 lit).srcPtr = addr (streaming .imageA 84 lit).cfg (.prep 0) ∧
    LineReady (streaming .imageA 84 lit) (.prep 0) ∧ (streaming .imageA 84 lit).cfg.divider = 1 ∧
    (streaming .imageA 84 lit).y < (streaming .imageA 84 lit).cfg.wholeFrame :=
  ⟨rfl, rfl, by decide, rfl, lit_prep 0 (by decide), rfl, by decide⟩

theorem witness_SteadyStateStreamsTheFrame :
    StreamReady litArmed ∧ PointerFollowsY litArmed ∧ litArmed.fault = none ∧ litArmed.cfg.divider = 1 ∧
    litArmed.dmaArmed = true ∧ litArmed.dmaBase = addr litArmed.cfg .imageA ∧ litArmed.dmaCnt = 0 ∧ litArmed.y = 0 ∧
    litArmed.outStream = [] := ⟨litArmed_ready, rfl, rfl, rfl, rfl, rfl, rfl, rfl, rfl⟩

theorem witness_WireOrderIsAddressOrder :
    lineByte State.reset 0x20000000 = some 0xC0 ∧ lineByte State.reset 0x20000001 = some 0xC0 ∧
    lineByte State.reset 0x20000002 = some 0xC0 ∧ lineByte State.reset 0x20000003 = some 0xC0 := by decide +kernel

theorem witness_LinePatterns :
    (∀ k ∈ [264, 295], k < State.reset.cfg.lineSamples ∧ State.reset.cfg.hsStart ≤ k ∧
      k < State.reset.cfg.hsStart + State.reset.cfg.hsWidth) ∧
    (∀ k ∈ [0, 263, 296, 335], k < State.reset.cfg.lineSamples ∧
      (k < State.reset.cfg.hsStart ∨ State.reset.cfg.hsStart + State.reset.cfg.hsWidth ≤ k)) := by decide

theorem witness_BlankTemplateContent :
    State.reset.fault = none ∧ State.reset.cfg.syncPolarity = 0xC0 ∧ State.reset.cfg.wholeLine = 336 ∧
    State.reset.cfg.hsWidth = 32 := by decide

theorem witness_RebuildRowBuildsTheLine :
    (0#2).toNat < (written 128).cfg.fbSlots ∧ (written 128).fault = none ∧ (written 128).rb = none ∧
    (∀ col, col < 128 → (fbByte (written 128) 0 (fbOffset 3 col)).isSome = true) ∧ PaletteBuilt (written 128) :=
  ⟨by decide, rfl, rfl, fun col h => by rw [written_byte h, if_pos h]; rfl, fun _ => palEntry_of_unlisted rfl⟩

/-- The first and the last column. -/
theorem witness_RebuildRowStopsAtUnwrittenByte : ∀ c ∈ [0, 127],
    (written c).fault = none ∧ (written c).rb = none ∧ c < 128 ∧
    (∀ col, col < c → (fbByte (written c) 0 (fbOffset 3 col)).isSome = true) ∧
    fbByte (written c) 0 (fbOffset 3 c) = none := by
  intro c hc
  have h : c < 128 := by simp at hc; omega
  exact ⟨rfl, rfl, h, fun col hcol => by rw [written_byte (by omega), if_pos hcol]; rfl, by rw [written_byte h, if_neg (by omega)]⟩

/-- From the start and from the last micro-step. -/
theorem witness_MicroStepsMakeRebuildRow :
    (∃ t, (written 128).rb = none ∧ exec (.rebuildRow 0 3) { written 128 with schedule := [.event 0] } = .next t) ∧
    (463 < rebuildSteps (written 128).cfg ∧ ∃ t, exec (.rebuildRow 0 3) (setRb (some ⟨0, 3, 463⟩) (written 128)) = .next t) :=
  ⟨⟨_, rfl, execRebuildRow_next.mpr ⟨by decide, rfl, 0, rfl, rfl⟩⟩, by decide,
    _, (execRebuildRow_next (slot := 0) (row := 3) (s := setRb (some ⟨0, 3, 463⟩) (written 128))).mpr ⟨by decide, rfl, 463, rfl, rfl⟩⟩

/-- The first and the last stamp, the first and the last column, written and unwritten. -/
theorem witness_MicroStepMakesOneAccess :
    (0#2).toNat < (written 128).cfg.fbSlots ∧ (written 128).fault = none ∧ (written 128).rb = none ∧
    (∀ m ∈ [0, 335], m < (written 128).cfg.lineSamples) ∧
    (∀ m ∈ [0, 335, 336, 463], ({ written 128 with rb := some ⟨0, 3, m⟩ } : State).rb = some ⟨0, 3, m⟩ ∧
      m < rebuildSteps (written 128).cfg) ∧
    ∀ col ∈ [0, 127], fbByte (written 128) 0 (fbOffset 3 col) = some 0xF7 ∧
      (setRb (some ⟨0, 3, 336 + col⟩) (written col)).fault = none ∧
      fbByte (setRb (some ⟨0, 3, 336 + col⟩) (written col)) 0 (fbOffset 3 col) = none := by
  refine ⟨by decide, rfl, rfl, by decide, by decide, ?_⟩
  intro col hc
  have h : col < 128 := by simp at hc; omega
  have hn := written_byte (c := col) h
  rw [if_neg (by omega)] at hn
  exact ⟨by rw [written_byte h, if_pos h], rfl, hn⟩

theorem witness_OneRebuildAtATime :
    (raiseIrq { State.reset with rb := some ⟨0, 3, 1⟩ }).fault = none ∧ (2#2).toNat < State.reset.cfg.fbSlots ∧
    ((0 : BitVec 2), (4 : Byte)) ≠ (0, 3) := by decide

/-- For AllZeroRebuild too. -/
theorem witness_RebuildBuildsEveryLine :
    (0#2).toNat < zeroed.cfg.fbSlots ∧ zeroed.fault = none ∧ zeroed.rb = none ∧
    (∀ off, off < 32768 → (fbByte zeroed 0 off).isSome = true) ∧ ∀ off, off < 32768 → fbByte zeroed 0 off = some 0 :=
  ⟨by decide, rfl, rfl, fun _ h => by rw [zeroed_byte h]; rfl, fun _ h => zeroed_byte h⟩

/-- The first and the last byte of the slot, and one between. -/
theorem witness_RebuildStopsAtUnwrittenByte : ∀ p ∈ [((0 : Byte), 0), (3, 5), (255, 127)],
    (0#2).toNat < (filled (fbOffset p.1 p.2)).cfg.fbSlots ∧ (filled (fbOffset p.1 p.2)).fault = none ∧
    (filled (fbOffset p.1 p.2)).rb = none ∧ p.2 < 128 ∧
    (∀ r : Byte, r.toNat < p.1.toNat → ∀ col, col < 128 →
      (fbByte (filled (fbOffset p.1 p.2)) 0 (fbOffset r col)).isSome = true) ∧
    (∀ col, col < p.2 → (fbByte (filled (fbOffset p.1 p.2)) 0 (fbOffset p.1 col)).isSome = true) ∧
    fbByte (filled (fbOffset p.1 p.2)) 0 (fbOffset p.1 p.2) = none := by
  rintro ⟨row, c⟩ hp
  have hc : c < 128 := by simp at hp; omega
  have hr := row.isLt
  refine ⟨show (0#2).toNat < Config.ref.fbSlots by decide, rfl, rfl, hc, fun r h col hcol => ?_, fun col hcol => ?_, ?_⟩
  · simp only at h ⊢
    rw [filled_byte (by unfold fbOffset fbStride; omega), if_pos (by unfold fbOffset fbStride; omega)]; rfl
  · simp only at hcol ⊢
    rw [filled_byte (by unfold fbOffset fbStride; omega), if_pos (by unfold fbOffset fbStride; omega)]; rfl
  · rw [filled_byte (by unfold fbOffset fbStride; omega), if_neg (by omega)]

theorem witness_FbWriteStoresOneByte :
    (0#2).toNat < State.reset.cfg.fbSlots ∧ (2#2).toNat < State.reset.cfg.fbSlots ∧ State.reset.fault = none := by decide

/-- Every clause: buffering off; a flag on the first, on the second, on no neighbour. -/
theorem witness_AcqWriteTakesAReadySlot :
    (State.resetOf oneSlot).bufferingMode = false ∧ (State.resetOf oneSlotBuffered).cfg.fbSlots = 1 ∧
    State.reset.bufferingMode = true ∧ State.reset.cfg.fbSlots ≠ 1 ∧
    ((rotation 0 2 false true false false).ready.set 0 false).get (0 + 1) = true ∧
    ((rotation 2 0 false true false false).ready.set 2 false).get (2 + 1) = false ∧
    ((rotation 2 0 false true false false).ready.set 2 false).get (2 + 2) = true ∧
    ((rotation 0 1 true false false false).ready.set 0 false).get (0 + 1) = false ∧
    ((rotation 0 1 true false false false).ready.set 0 false).get (0 + 2) = false := by decide

theorem witness_AcqDisplayPicksASlot :
    (State.resetOf oneSlot).bufferingMode = false ∧ (State.resetOf oneSlotBuffered).cfg.fbSlots = 1 ∧
    State.reset.bufferingMode = true ∧ State.reset.cfg.fbSlots ≠ 1 ∧ State.reset.firstFrame = true ∧
    (rotation 0 2 false true false false).ready.get (2 + 1) = false ∧
    ((rotation 0 0 false true false false).ready.get (0 + 1) = true ∧ (rotation 0 0 false true false false).ready.get (0 + 2) = false) ∧
    ((rotation 1 0 false true true false).ready.get (0 + 1) = true ∧ (rotation 1 0 false true true false).ready.get (0 + 2) = true) := by
  decide

theorem witness_SetBufferingWritesTheMode :
    ¬ (true = true ∧ State.reset.cfg.fbSlots = 1) ∧ (State.resetOf oneSlot).cfg.fbSlots = 1 ∧
    (State.resetOf oneSlot).bufferingMode = false := by decide

/-- V44 `D D D W D` from the cleared state: the latest ACQ_WRITE returned slot 1, ACQ_DISPLAY then returns slot 0. -/
theorem witness_RotationSafety :
    ∃ s0 s1 t : State, Rotated s0 3 ∧ exec .acqWrite s0 = .next s1 ∧ s1.result = some (.slot 1) ∧ Rotated s1 1 ∧
      exec .acqDisplay s1 = .next t ∧ t.result = some (.slot 0) := by
  have h0 : Rotated State.reset 3 := .cleared _ rfl (by decide) rfl rfl rfl rfl
  have h1 := Rotated.display _ _ _ h0 rfl
  have h2 := Rotated.display _ _ _ h1 rfl
  have h3 := Rotated.display _ _ _ h2 rfl
  exact ⟨_, _, _, h3, rfl, by decide, .write _ _ _ _ h3 rfl (by decide), rfl, by decide⟩

/-- For OnlyStreamPutsOut and ConfigurationIsFrozen. -/
theorem witness_exec_next :
    (∃ t, exec .stream litArmed = .next t) ∧ (∃ t, exec .palBuild State.reset = .next t) ∧
    (∃ t, step (placeTurn (.event 0x10000102) State.reset) = .next t) := ⟨litArmed_stream, ⟨_, rfl⟩, ⟨_, rfl⟩⟩

theorem witness_FaultStopsAllButReset :
    (raiseFault (.uninitFb 0 0 1) State.reset).fault ≠ none ∧ encode .palBuild = some 0x60000000 ∧
    (Instr.palBuild).wf State.reset.cfg = true ∧
    (placeTurn (.event 0x60000000) (raiseFault (.uninitFb 0 0 1) State.reset)).schedule.head? ≠ some (.event 0) ∧
    see (fun t => t.schedule) (step (placeTurn (.event 0x60000000) (raiseFault (.uninitFb 0 0 1) State.reset))) = some [] := by
  decide

/-- A next state of an operation of each agent. -/
theorem witness_ContextsWriteOnlyTheirOwn :
    (Instr.step.agent = .isr ∧ ∃ t, exec .step (atLine 0) = .next t) ∧
    ((Instr.reloadSource .blank).agent = .isr ∧ ∃ t, exec (.reloadSource .blank) State.reset = .next t) ∧
    (Instr.stream.agent = .data ∧ ∃ t, exec .stream litArmed = .next t) ∧
    (Instr.lineEnd.agent = .ctrl ∧ ∃ t, exec .lineEnd (streaming .imageA 84 lit) = .next t) ∧
    (Instr.acqWrite.agent = .producer ∧ ∃ t, exec .acqWrite State.reset = .next t) ∧
    ((Instr.rebuildRow 0 3).agent = .consumer ∧ ∃ t, exec (.rebuildRow 0 3) (written 128) = .next t) ∧
    ((Instr.palRead 0).agent = .any ∧ ∃ t, exec (.palRead 0) State.reset = .next t) ∧
    (Instr.palBuild.agent = .host ∧ Instr.palBuild ≠ .reset ∧ ∃ t, exec .palBuild State.reset = .next t) :=
  ⟨⟨rfl, _, rfl⟩, ⟨rfl, _, rfl⟩, ⟨rfl, litArmed_stream⟩, ⟨rfl, _, rfl⟩, ⟨rfl, _, rfl⟩,
    ⟨rfl, _, execRebuildRow_next.mpr ⟨by decide, rfl, 0, rfl, rfl⟩⟩, ⟨rfl, _, rfl⟩, ⟨rfl, by decide, _, rfl⟩⟩

/-- A changed prepared line, a changed frame buffer, a changed pointer. -/
theorem witness_MemoriesHaveOneWriter :
    see (fun t => decide (lineByte t 0x200013F0 ≠ lineByte row3 0x200013F0)) (exec (.rebuildRow 0 3) row3) = some true ∧
    see (fun t => decide (fbByte t 0 0 ≠ fbByte State.reset 0 0)) (exec (.fbWrite 0 0 1) State.reset) = some true ∧
    see (fun t => decide (t.srcPtr ≠ State.reset.srcPtr)) (exec (.reloadSource .blank) State.reset) = some true := by
  decide +kernel

theorem witness_OnlyTheirOperationsWriteTheLatches :
    see (fun t => decide (t.y ≠ (atLine 0).y) && !t.irqPending) (exec .step (atLine 0)) = some true ∧
    see (fun t => t.irqPending) (exec .lineEnd (streaming .imageA 84 lit)) = some true ∧
    see (fun t => t.dmaArmed) (exec (.arm .blank) State.reset) = some true ∧
    see (fun t => t.dmaArmed) (exec .reset litArmed) = some false := by decide +kernel

theorem witness_UnarmedBaseIsNeverRead :
    State.reset.dmaArmed = false ∧ (∃ t, exec .palBuild State.reset = .next t) ∧ (∃ t, exec (.arm .blank) State.reset = .next t) ∧
    exec .stream State.reset = .refused (.notEnabled .notArmed) := ⟨rfl, ⟨_, rfl⟩, ⟨_, rfl⟩, rfl⟩

theorem witness_BootObligationsPreventUnwrittenStream :
    StreamReady litArmed ∧ Safe litArmed ∧ (∃ t, exec .stream litArmed = .next t) ∧ LineReady litArmed (.prep 3) :=
  ⟨litArmed_ready, rfl, litArmed_stream, lit_prep 3 (by decide)⟩

end Sys2Proof.Tests
end

/-! SUPPORT. What one step of the machine can do, said once, and that no step changes the configuration (O52). -/

namespace Sys2Proof.Proofs

open Sys2Proof.Machine Sys2Proof.Laws

/-! ### One step of the machine: when it answers a next state, and which -/

/-- A turn that is passed over leaves the state as the turn found it (log 3). -/
theorem passIfBlocked_eq_next {s t : State} {a : Answer} :
    passIfBlocked s a = .next t ↔ a = .next t ∨ (∃ why, a = .refused (.notEnabled why)) ∧ t = s := by
  cases a with
  | next u => simp [passIfBlocked]
  | fault f => simp [passIfBlocked]
  | refused r => cases r <;> simp [passIfBlocked, eq_comm]

theorem performEvent_eq_next {w : Word} {s t : State} :
    performEvent w s = .next t ↔ ∃ i, decode w = .ok i ∧ i.wf s.cfg = true ∧ exec i s = .next t := by
  unfold performEvent
  cases decode w with
  | error why => simp
  | ok i => by_cases hwf : i.wf s.cfg = true <;> simp [hwf]

/-- A step idles, performs the first turn, or passes over it. -/
theorem step_eq_next {s t : State} :
    step s = .next t ↔ (s.schedule = [] ∧ t = s) ∨
      ∃ turn rest, s.schedule = turn :: rest ∧
        (attemptTurn turn (popTurn s) = .next t ∨
          (∃ why, attemptTurn turn (popTurn s) = .refused (.notEnabled why)) ∧ t = popTurn s) := by
  unfold step nextTurn
  cases s.schedule with
  | nil => simp [eq_comm]
  | cons turn rest => simp [performTurn, passIfBlocked_eq_next]

/-- A step keeps what the dropping of a turn, every operation and every micro-step of a rebuild keep. -/
theorem step_keeps {P : State → Prop} (hpop : ∀ s, P s → P (popTurn s))
    (hexec : ∀ i s t, P s → exec i s = .next t → P t)
    (hmicro : ∀ slot row s t, P s → rebuildMicro slot row s = .next t → P t)
    {s t : State} (hs : P s) (h : step s = .next t) : P t := by
  rcases step_eq_next.mp h with ⟨-, rfl⟩ | ⟨turn, rest, -, hturn | ⟨-, rfl⟩⟩
  · exact hs
  · cases turn with
    | event w =>
      obtain ⟨i, -, -, hi⟩ := performEvent_eq_next.mp hturn
      exact hexec i _ t (hpop s hs) hi
    | micro slot row => exact hmicro slot row _ t (hpop s hs) hturn
  · exact hpop s hs

/-! ### The operations that branch, their frames -/

/-- ACQ_WRITE writes the `ready` flags, the producer's slot and the model's result, and nothing else. -/
theorem acquireForWrite_frame (s : State) :
    acquireForWrite s = { s with
      ready := (acquireForWrite s).ready
      inIndex := (acquireForWrite s).inIndex
      result := (acquireForWrite s).result } := by
  unfold acquireForWrite
  extract_lets t
  split
  · rfl
  · split <;> rfl

/-- ACQ_DISPLAY writes the `ready` flags, the consumer's slot, the first-frame gate and the model's result, and nothing else. -/
theorem acquireForDisplay_frame (s : State) :
    acquireForDisplay s = { s with
      ready := (acquireForDisplay s).ready
      outIndex := (acquireForDisplay s).outIndex
      firstFrame := (acquireForDisplay s).firstFrame
      result := (acquireForDisplay s).result } := by
  unfold acquireForDisplay
  split
  · rfl
  · split
    · rfl
    · split <;> rfl

/-- One micro-step of a rebuild, its frame. -/
theorem rebuildAccess_frame (slot : BitVec 2) (row : Byte) (m : Nat) (s : State) :
    rebuildAccess slot row m s = { s with
      line := (rebuildAccess slot row m s).line
      rb := (rebuildAccess slot row m s).rb
      fault := (rebuildAccess slot row m s).fault } := by
  unfold rebuildAccess
  extract_lets col
  split
  · rfl
  · split <;> rfl

/-! ### The configuration after each compound update -/

@[simp] theorem resetBlock_config (s : State) : (resetBlock s).config = s.config := rfl

@[simp] theorem handleLine_config (s : State) : (handleLine s).config = s.config := rfl

@[simp] theorem buildTpl_config (k : BitVec 2) (s : State) : (buildTpl k s).config = s.config := rfl

@[simp] theorem zeroFb_config (s : State) : (zeroFb s).config = s.config := rfl

@[simp] theorem acquireForWrite_config (s : State) : (acquireForWrite s).config = s.config := by rw [acquireForWrite_frame]

@[simp] theorem acquireForDisplay_config (s : State) : (acquireForDisplay s).config = s.config := by
  rw [acquireForDisplay_frame]

@[simp] theorem rebuildAccess_config (slot : BitVec 2) (row : Byte) (m : Nat) (s : State) :
    (rebuildAccess slot row m s).config = s.config := by rw [rebuildAccess_frame]

@[simp] theorem rebuildRows_config (slot : BitVec 2) (rows : List Byte) (s : State) :
    (rebuildRows slot rows s).config = s.config := by rw [rebuildRows_frame]

/-! ### No operation, no micro-step and no step changes the configuration -/

/-- 00_scope.md rule R2: "no operation changes it". -/
theorem exec_config {i : Instr} {s t : State} (h : exec i s = .next t) : t.config = s.config := by
  cases i with
  | reset => simp [execReset_next.mp h]
  | arm b => simp [execArm_next.mp h]
  | stream =>
    obtain ⟨-, -, -, -, ⟨w, -, rfl⟩ | ⟨-, rfl⟩⟩ := execStream_next.mp h
    · exact emitWord_config s w
    · exact raiseFault_config s _
  | lineEnd => simp [execLineEnd_next.mp h]
  | step => simp [execStep_next.mp h]
  | palRead idx => simp [execPalRead_next.mp h]
  | palBuild => simp [execPalBuild_next.mp h]
  | tplBuild => simp [execTplBuild_next.mp h]
  | rebuildRow slot row =>
    obtain ⟨-, -, m, -, rfl⟩ := execRebuildRow_next.mp h
    exact rebuildRest_config slot row m s
  | rebuild slot => simp [execRebuild_next.mp h]
  | fbWrite slot off val => simp [execFbWrite_next.mp h]
  | acqWrite =>
    obtain ⟨-, rfl⟩ := execAcqWrite_next.mp h
    split
    · exact acquireForWrite_config s
    · exact giveResult_config s _
  | acqDisplay =>
    obtain ⟨-, rfl⟩ := execAcqDisplay_next.mp h
    split
    · exact acquireForDisplay_config s
    · exact giveResult_config s _
  | clearBuffers => simp [execClearBuffers_next.mp h]
  | setBuffering en => simp [execSetBuffering_next.mp h]
  | reloadSource b => simp [execReloadSource_next.mp h]
  | classify y => simp [execClassify_next.mp h]
  | select y => simp [execSelect_next.mp h]
  | nextY y => simp [execNextY_next.mp h]
  | lane n => simp [execLane_next.mp h]
  | addr b => simp [execAddr_next.mp h]
  | plainLine k => simp [execPlainLine_next.mp h]
  | vsyncLine k => simp [execVsyncLine_next.mp h]

theorem rebuildMicro_config {slot : BitVec 2} {row : Byte} {s t : State} (h : rebuildMicro slot row s = .next t) :
    t.config = s.config := by
  obtain ⟨-, -, m, -, rfl⟩ := rebuildMicro_next.mp h
  exact rebuildAccess_config slot row m s

/-- Settles O52: dropping a turn, every operation and every micro-step keep the configuration, and so does a step. -/
theorem configurationIsFrozen : Obligations.ConfigurationIsFrozen := by
  intro s t h
  exact step_keeps (P := fun u => u.config = s.config)
    (fun u hu => (popTurn_config u).trans hu)
    (fun _ _ _ hu hi => (exec_config hi).trans hu)
    (fun _ _ _ _ hu hm => (rebuildMicro_config hm).trans hu) rfl h

end Sys2Proof.Proofs

/-! SUPPORT. What one operation can do to the state, said once for all operations: which registers of the scanline state machine
and the transfer chain it writes, and what an operation on the memories and the rotation leaves unchanged. -/

namespace Sys2Proof.Proofs

open Sys2Proof.Machine Sys2Proof.Laws

/-! ### The compound updates, by field -/

@[simp] theorem resetBlock_irqPending (s : State) : (resetBlock s).irqPending = false := rfl
@[simp] theorem resetBlock_dmaArmed (s : State) : (resetBlock s).dmaArmed = false := rfl
@[simp] theorem resetBlock_outStream (s : State) : (resetBlock s).outStream = [] := rfl
@[simp] theorem resetBlock_schedule (s : State) : (resetBlock s).schedule = s.schedule := rfl

@[simp] theorem handleLine_y (s : State) : (handleLine s).y = nextY s.cfg s.y := rfl
@[simp] theorem handleLine_srcPtr (s : State) : (handleLine s).srcPtr = addr s.cfg (select s.cfg (nextY s.cfg s.y)) := rfl
@[simp] theorem handleLine_irqPending (s : State) : (handleLine s).irqPending = false := rfl
@[simp] theorem handleLine_dmaArmed (s : State) : (handleLine s).dmaArmed = s.dmaArmed := rfl
@[simp] theorem handleLine_dmaBase (s : State) : (handleLine s).dmaBase = s.dmaBase := rfl
@[simp] theorem handleLine_dmaCnt (s : State) : (handleLine s).dmaCnt = s.dmaCnt := rfl
@[simp] theorem handleLine_outStream (s : State) : (handleLine s).outStream = s.outStream := rfl

/-! ### What stays -/

/-- The scanline state machine, the transfer chain and the output history of `s` and `t` agree. -/
structure ScanoutKept (s t : State) : Prop where
  config : t.config = s.config
  y : t.y = s.y
  srcPtr : t.srcPtr = s.srcPtr
  irqPending : t.irqPending = s.irqPending
  dmaArmed : t.dmaArmed = s.dmaArmed
  dmaBase : t.dmaBase = s.dmaBase
  dmaCnt : t.dmaCnt = s.dmaCnt
  outStream : t.outStream = s.outStream

/-- The three memories, the rebuild in progress and the buffering mode of `s` and `t` agree. -/
structure MemoryKept (s t : State) : Prop where
  config : t.config = s.config
  bufferingMode : t.bufferingMode = s.bufferingMode
  rb : t.rb = s.rb
  pal : t.pal = s.pal
  line : t.line = s.line
  fb : t.fb = s.fb

theorem ScanoutKept.cfg {s t : State} (h : ScanoutKept s t) : t.cfg = s.cfg := congrArg WfConfig.toConfig h.config

theorem MemoryKept.cfg {s t : State} (h : MemoryKept s t) : t.cfg = s.cfg := congrArg WfConfig.toConfig h.config

theorem ScanoutKept.trans {s t u : State} (h : ScanoutKept s t) (h' : ScanoutKept t u) : ScanoutKept s u :=
  ⟨h'.config.trans h.config, h'.y.trans h.y, h'.srcPtr.trans h.srcPtr, h'.irqPending.trans h.irqPending,
    h'.dmaArmed.trans h.dmaArmed, h'.dmaBase.trans h.dmaBase, h'.dmaCnt.trans h.dmaCnt, h'.outStream.trans h.outStream⟩

theorem scanoutKept_storePal (ws : List PalWord) (s : State) : ScanoutKept s (storePal ws s) :=
  ⟨rfl, rfl, rfl, rfl, rfl, rfl, rfl, rfl⟩

theorem scanoutKept_storeFb (slot : BitVec 2) (off : Nat) (vs : List Byte) (s : State) :
    ScanoutKept s (storeFb slot off vs s) := ⟨rfl, rfl, rfl, rfl, rfl, rfl, rfl, rfl⟩

theorem scanoutKept_clearRotation (s : State) : ScanoutKept s (clearRotation s) :=
  ⟨rfl, rfl, rfl, rfl, rfl, rfl, rfl, rfl⟩

theorem scanoutKept_buildTpl (k : BitVec 2) (s : State) : ScanoutKept s (buildTpl k s) :=
  ⟨rfl, rfl, rfl, rfl, rfl, rfl, rfl, rfl⟩

theorem scanoutKept_rebuildRest (slot : BitVec 2) (row : Byte) (m : Nat) (s : State) :
    ScanoutKept s (rebuildRest slot row m s) := by
  rw [rebuildRest_frame]; exact ⟨rfl, rfl, rfl, rfl, rfl, rfl, rfl, rfl⟩

theorem scanoutKept_rebuildRows (slot : BitVec 2) (rows : List Byte) (s : State) :
    ScanoutKept s (rebuildRows slot rows s) := by
  rw [rebuildRows_frame]; exact ⟨rfl, rfl, rfl, rfl, rfl, rfl, rfl, rfl⟩

theorem scanoutKept_rebuildAccess (slot : BitVec 2) (row : Byte) (m : Nat) (s : State) :
    ScanoutKept s (rebuildAccess slot row m s) := by
  rw [rebuildAccess_frame]; exact ⟨rfl, rfl, rfl, rfl, rfl, rfl, rfl, rfl⟩

theorem scanoutKept_acquireForWrite (s : State) : ScanoutKept s (acquireForWrite s) := by
  rw [acquireForWrite_frame]; exact ⟨rfl, rfl, rfl, rfl, rfl, rfl, rfl, rfl⟩

theorem scanoutKept_acquireForDisplay (s : State) : ScanoutKept s (acquireForDisplay s) := by
  rw [acquireForDisplay_frame]; exact ⟨rfl, rfl, rfl, rfl, rfl, rfl, rfl, rfl⟩

theorem memoryKept_acquireForWrite (s : State) : MemoryKept s (acquireForWrite s) := by
  rw [acquireForWrite_frame]; exact ⟨rfl, rfl, rfl, rfl, rfl, rfl⟩

theorem memoryKept_acquireForDisplay (s : State) : MemoryKept s (acquireForDisplay s) := by
  rw [acquireForDisplay_frame]; exact ⟨rfl, rfl, rfl, rfl, rfl, rfl⟩

/-! ### What an operation does -/

/-- The next state of an operation on the memories or the rotation, and of one that only returns a value. -/
inductive BackgroundEffect (s : State) : Instr → State → Prop where
  | palBuild : BackgroundEffect s .palBuild (storePal (palContent s.cfg) s)
  | tplBuild : BackgroundEffect s .tplBuild (buildTpl 3 (buildTpl 2 (buildTpl 1 (buildTpl 0 s))))
  | rebuildRow {slot : BitVec 2} {row : Byte} {m : Nat} (hslot : slot.toNat < s.cfg.fbSlots)
      (hm : rebuildFrom s slot row = some m) : BackgroundEffect s (.rebuildRow slot row) (rebuildRest slot row m s)
  | rebuild {slot : BitVec 2} (hslot : slot.toNat < s.cfg.fbSlots) (hrb : s.rb = none) :
      BackgroundEffect s (.rebuild slot) (rebuildRows slot allRows s)
  | fbWrite {slot : BitVec 2} {off : BitVec 15} {val : Byte} :
      BackgroundEffect s (.fbWrite slot off val) (storeFb slot off.toNat [val] s)
  | clearBuffers : BackgroundEffect s .clearBuffers (clearRotation (zeroFb s))
  | setBuffering {en : Bool} (hen : ¬ (en = true ∧ s.cfg.fbSlots = 1)) :
      BackgroundEffect s (.setBuffering en) (setBufferingMode en s)
  | acqWrite : BackgroundEffect s .acqWrite (acquireForWrite s)
  | acqDisplay : BackgroundEffect s .acqDisplay (acquireForDisplay s)
  | returns {i : Instr} {r : OpResult} : BackgroundEffect s i (giveResult r s)

/-- The next state of an operation: the seven that write the scanline state machine or the transfer chain one by one, the others
together. -/
inductive ExecEffect (s : State) : Instr → State → Prop where
  | reset : ExecEffect s .reset (resetBlock s)
  | arm {b : BufId} (hunarmed : s.dmaArmed = false) : ExecEffect s (.arm b) (setArmed (loadChain (addr s.cfg b) s))
  | emit {w : Word} (harmed : s.dmaArmed = true) (hcnt : s.dmaCnt < s.cfg.lineWords) : ExecEffect s .stream (emitWord w s)
  | unwritten {a : Nat} (harmed : s.dmaArmed = true) : ExecEffect s .stream (raiseFault (.uninitLine a) s)
  | lineEnd (harmed : s.dmaArmed = true) (hcnt : s.dmaCnt = s.cfg.lineWords) :
      ExecEffect s .lineEnd (raiseIrq (loadChain s.srcPtr s))
  | step (hy : s.y < s.cfg.wholeFrame) : ExecEffect s .step (handleLine s)
  | reloadSource {b : BufId} : ExecEffect s (.reloadSource b) (publish b s)
  | background {i : Instr} {t : State} (h : BackgroundEffect s i t) : ExecEffect s i t

theorem BackgroundEffect.scanoutKept {s t : State} {i : Instr} (h : BackgroundEffect s i t) : ScanoutKept s t := by
  cases h with
  | palBuild => exact scanoutKept_storePal _ s
  | tplBuild =>
    exact (scanoutKept_buildTpl 0 s).trans <| (scanoutKept_buildTpl 1 _).trans <|
      (scanoutKept_buildTpl 2 _).trans (scanoutKept_buildTpl 3 _)
  | rebuildRow => exact scanoutKept_rebuildRest _ _ _ s
  | rebuild => exact scanoutKept_rebuildRows _ _ s
  | acqWrite => exact scanoutKept_acquireForWrite s
  | acqDisplay => exact scanoutKept_acquireForDisplay s
  | fbWrite => exact scanoutKept_storeFb _ _ _ s
  | clearBuffers => exact (scanoutKept_storeFb _ _ _ s).trans (scanoutKept_clearRotation _)
  | setBuffering | returns => exact ⟨rfl, rfl, rfl, rfl, rfl, rfl, rfl, rfl⟩

/-- Every next state of an operation is one of these. -/
theorem exec_effect {i : Instr} {s t : State} (h : exec i s = .next t) : ExecEffect s i t := by
  cases i with
  | reset => obtain rfl := execReset_next.mp h; exact .reset
  | arm b => obtain ⟨-, hunarmed, rfl⟩ := execArm_next.mp h; exact .arm hunarmed
  | stream =>
    obtain ⟨-, harmed, hcnt, -, ⟨w, -, rfl⟩ | ⟨-, rfl⟩⟩ := execStream_next.mp h
    · exact .emit harmed hcnt
    · exact .unwritten harmed
  | lineEnd => obtain ⟨-, harmed, hcnt, rfl⟩ := execLineEnd_next.mp h; exact .lineEnd harmed hcnt
  | step => obtain ⟨-, -, -, hy, rfl⟩ := execStep_next.mp h; exact .step hy
  | reloadSource b => obtain ⟨-, rfl⟩ := execReloadSource_next.mp h; exact .reloadSource
  | palBuild => obtain ⟨-, rfl⟩ := execPalBuild_next.mp h; exact .background .palBuild
  | tplBuild => obtain ⟨-, rfl⟩ := execTplBuild_next.mp h; exact .background .tplBuild
  | rebuildRow slot row =>
    obtain ⟨hslot, -, m, hm, rfl⟩ := execRebuildRow_next.mp h
    exact .background (.rebuildRow hslot hm)
  | rebuild slot =>
    obtain ⟨hslot, -, hrb, rfl⟩ := execRebuild_next.mp h
    exact .background (.rebuild hslot hrb)
  | fbWrite slot off val => obtain ⟨-, -, rfl⟩ := execFbWrite_next.mp h; exact .background .fbWrite
  | acqWrite =>
    obtain ⟨-, rfl⟩ := execAcqWrite_next.mp h
    split
    · exact .background .acqWrite
    · exact .background .returns
  | acqDisplay =>
    obtain ⟨-, rfl⟩ := execAcqDisplay_next.mp h
    split
    · exact .background .acqDisplay
    · exact .background .returns
  | clearBuffers => obtain ⟨-, rfl⟩ := execClearBuffers_next.mp h; exact .background .clearBuffers
  | setBuffering en => obtain ⟨-, hen, rfl⟩ := execSetBuffering_next.mp h; exact .background (.setBuffering hen)
  | palRead idx => obtain ⟨-, rfl⟩ := execPalRead_next.mp h; exact .background .returns
  | classify y => obtain ⟨-, rfl⟩ := execClassify_next.mp h; exact .background .returns
  | select y => obtain ⟨-, rfl⟩ := execSelect_next.mp h; exact .background .returns
  | nextY y => obtain ⟨-, rfl⟩ := execNextY_next.mp h; exact .background .returns
  | lane n => obtain rfl := execLane_next.mp h; exact .background .returns
  | addr b => obtain rfl := execAddr_next.mp h; exact .background .returns
  | plainLine k => obtain ⟨-, rfl⟩ := execPlainLine_next.mp h; exact .background .returns
  | vsyncLine k => obtain ⟨-, rfl⟩ := execVsyncLine_next.mp h; exact .background .returns

theorem rebuildMicro_scanoutKept {slot : BitVec 2} {row : Byte} {s t : State} (h : rebuildMicro slot row s = .next t) :
    ScanoutKept s t := by
  obtain ⟨-, -, m, -, rfl⟩ := rebuildMicro_next.mp h
  exact scanoutKept_rebuildAccess slot row m s

end Sys2Proof.Proofs

/-! SUPPORT. The history, the latches and the published pointer, read off the effect of one operation (O51, O56, O13). -/

namespace Sys2Proof.Proofs

open Sys2Proof.Machine Sys2Proof.Laws

/-- Settles O51: of the operations but RESET only STREAM's word reaches the history. -/
theorem onlyStreamPutsOut : Obligations.OnlyStreamPutsOut := by
  intro i s t h hreset
  cases exec_effect h with
  | reset => exact absurd rfl hreset
  | emit => exact ⟨fun hne => absurd rfl hne, .inr ⟨_, rfl⟩⟩
  | background hb => exact ⟨fun _ => hb.scanoutKept.outStream, .inl hb.scanoutKept.outStream⟩
  | arm | unwritten | lineEnd | step | reloadSource => exact ⟨fun _ => rfl, .inl rfl⟩

/-- Settles O56: the operations a clause names are the only ones whose effect meets its hypothesis. -/
theorem onlyTheirOperationsWriteTheLatches : Obligations.OnlyTheirOperationsWriteTheLatches := by
  intro i s t h
  cases exec_effect h with
  | reset => simp
  | arm hunarmed => simp +contextual [hunarmed]
  | lineEnd harmed => simp [harmed]
  | step => simp +contextual
  | emit | unwritten | reloadSource => simp +contextual
  | background hb =>
    rw [hb.scanoutKept.y, hb.scanoutKept.irqPending, hb.scanoutKept.dmaArmed]
    simp +contextual

/-! ### The published pointer -/

theorem pointerFollowsY_resetOf (c : WfConfig) : PointerFollowsY (State.resetOf c) := rfl

theorem pointerFollowsY_resetBlock (s : State) : PointerFollowsY (resetBlock s) := rfl

/-- STEP publishes the buffer of the scanline it moves to, whatever the pointer was. -/
theorem pointerFollowsY_handleLine (s : State) : PointerFollowsY (handleLine s) := rfl

theorem ScanoutKept.pointerFollowsY {s t : State} (h : ScanoutKept s t) (hs : PointerFollowsY s) : PointerFollowsY t := by
  unfold PointerFollowsY
  rw [h.srcPtr, h.cfg, h.y]
  exact hs

/-- Only a RELOAD_SOURCE of its own moves the pointer away from the scanline's buffer. -/
theorem exec_keeps_pointerFollowsY {i : Instr} {s t : State} (hs : PointerFollowsY s) (hi : ∀ b, i ≠ .reloadSource b)
    (h : exec i s = .next t) : PointerFollowsY t := by
  cases exec_effect h with
  | reset => exact pointerFollowsY_resetBlock s
  | step => exact pointerFollowsY_handleLine s
  | reloadSource => exact absurd rfl (hi _)
  | background hb => exact hb.scanoutKept.pointerFollowsY hs
  | arm | emit | unwritten | lineEnd => exact hs

/-- Settles O13, from what RESET, STEP and the other operations do to the pointer. -/
theorem pointerFollowsScanline : Obligations.PointerFollowsScanline := by
  refine ⟨pointerFollowsY_resetOf, fun s t h => ?_, fun s t h => ?_, fun i s t hs hi h => ?_, fun slot row s t hs h => ?_⟩
  · obtain rfl := execReset_next.mp h
    exact pointerFollowsY_resetBlock s
  · obtain ⟨-, -, -, -, rfl⟩ := execStep_next.mp h
    exact pointerFollowsY_handleLine s
  · exact exec_keeps_pointerFollowsY hs hi h
  · exact (rebuildMicro_scanoutKept h).pointerFollowsY hs

end Sys2Proof.Proofs

/-! SUPPORT. The reset state: its constructed palette and templates, the reset values and the invariant (O2, O11). -/

namespace Sys2Proof.Proofs

open Sys2Proof.Machine Sys2Proof.Laws

/-! ### Memories that list nothing -/

theorem paletteBuilt_of_pal_nil {s : State} (h : s.pal = []) : PaletteBuilt s := fun i =>
  palEntry_of_unlisted (by rw [h]; rfl)

theorem lineByte_of_line_nil {s : State} (h : s.line = []) (a : Nat) : lineByte s a = lineInitial s.cfg a := by
  unfold lineByte; rw [h]; rfl

theorem templatesBuilt_of_line_nil {s : State} (h : s.line = []) : TemplatesBuilt s := by
  have hw : s.cfg.WellFormed := s.config.ok
  intro k n hn
  unfold bufSample
  rw [lineByte_of_line_nil h, lineInitial_tpl hw (by rw [lineBytes_eq hw]; exact hn)]

theorem bufSample_prep_of_line_nil {s : State} (h : s.line = []) (r : Byte) {k : Nat} (hk : k < s.cfg.lineBytes) :
    bufSample s (.prep r) k = none := by
  unfold bufSample
  rw [lineByte_of_line_nil h, lineInitial_prep s.config.ok (r := r) ⟨Nat.le_add_right _ _, Nat.add_lt_add_left hk _⟩]

theorem fbByte_of_fb_nil {s : State} (h : s.fb = []) (slot : BitVec 2) (off : Nat) : fbByte s slot off = none := by
  unfold fbByte; rw [h]; rfl

/-! ### The reset values -/

theorem isReset_resetOf (c : WfConfig) : IsReset (State.resetOf c) where
  y := rfl
  srcPtr := rfl
  irqPending := rfl
  dmaArmed := rfl
  dmaCnt := rfl
  inIndex := rfl
  outIndex := rfl
  ready := ready_get_clear
  firstFrame := rfl
  bufferingMode := rfl
  rb := rfl
  fault := rfl
  outStream := rfl
  palette := paletteBuilt_of_pal_nil rfl
  templates := templatesBuilt_of_line_nil rfl
  prepared r _ hk := bufSample_prep_of_line_nil rfl r hk
  frames := fbByte_of_fb_nil rfl

/-- RESET differs from the reset state only where `IsReset` says nothing: `dma_base`, the draws and the schedule. -/
theorem isReset_resetBlock (s : State) : IsReset (resetBlock s) :=
  have h := isReset_resetOf s.config
  ⟨h.y, h.srcPtr, h.irqPending, h.dmaArmed, h.dmaCnt, h.inIndex, h.outIndex, h.ready, h.firstFrame, h.bufferingMode, h.rb,
    h.fault, h.outStream, h.palette, h.templates, h.prepared, h.frames⟩

/-- Settles O2. -/
theorem resetStateHasResetValues : Obligations.ResetStateHasResetValues := by
  refine ⟨fun c => ⟨isReset_resetOf c, rfl⟩, rfl, fun s t h => ?_⟩
  obtain rfl := execReset_next.mp h
  exact resetBlock_schedule s

/-! ### The invariant at reset -/

/-- The reset values and canonical memories meet the invariant, whatever `dma_base` holds. -/
theorem inv_of_isReset {s : State} (h : IsReset s) (hc : CanonicalMemory s) : Inv s where
  yRange := by rw [h.y]; exact s.config.ok.framePos
  cntRange := by rw [h.dmaCnt]; exact Nat.zero_le _
  srcIsBuf := ⟨_, h.srcPtr⟩
  baseIsBuf ha := by rw [h.dmaArmed] at ha; cases ha
  irqArmed hi := by rw [h.irqPending] at hi; cases hi
  rbRange r hr := by rw [h.rb] at hr; cases hr
  oneSlotKept _ hb := h.bufferingMode ▸ hb
  canonical := hc
  palette := h.palette
  templates := h.templates

/-- Settles O11. -/
theorem resetMeetsInvariant : Obligations.ResetMeetsInvariant := fun c =>
  inv_of_isReset (isReset_resetOf c) (canonicalMemory_reset c)

theorem inv_resetBlock (s : State) : Inv (resetBlock s) :=
  inv_of_isReset (isReset_resetBlock s) (canonicalMemory_reset s.config)

end Sys2Proof.Proofs

/-! SUPPORT. One prepared-line rebuild at a time (O41). -/

namespace Sys2Proof.Proofs

open Sys2Proof.Machine Sys2Proof.Laws

/-- While a rebuild is in progress no other slot or row has a micro-step to go on from. -/
theorem rebuildFrom_of_ne {s : State} {slot slot' : BitVec 2} {row row' : Byte} {m : Nat} (h : s.rb = some ⟨slot, row, m⟩)
    (hne : (slot', row') ≠ (slot, row)) : rebuildFrom s slot' row' = none := by
  have hne' : ¬ (slot = slot' ∧ row = row') := fun ⟨hs, hr⟩ => hne (by rw [hs, hr])
  simp only [rebuildFrom, h, if_neg hne']

theorem execRebuild_of_inProgress {s : State} {slot : BitVec 2} (hslot : slot.toNat < s.cfg.fbSlots) (hf : s.fault = none)
    (hrb : s.rb ≠ none) : execRebuild slot s = .refused (.notEnabled .rebuildInProgress) := by
  rw [execRebuild, whenSlot_pos hslot, whenFaultFree_pos hf, whenEnabled_neg hrb]

theorem execRebuildRow_of_inProgress {s : State} {slot : BitVec 2} {row : Byte} (hslot : slot.toNat < s.cfg.fbSlots)
    (hf : s.fault = none) (hfrom : rebuildFrom s slot row = none) :
    execRebuildRow slot row s = .refused (.notEnabled .rebuildInProgress) := by
  rw [execRebuildRow, whenSlot_pos hslot, whenFaultFree_pos hf, hfrom]

theorem rebuildMicro_of_inProgress {s : State} {slot : BitVec 2} {row : Byte} (hslot : slot.toNat < s.cfg.fbSlots)
    (hf : s.fault = none) (hfrom : rebuildFrom s slot row = none) :
    rebuildMicro slot row s = .refused (.notEnabled .rebuildInProgress) := by
  rw [rebuildMicro, whenSlot_pos hslot, whenFaultFree_pos hf, hfrom]

/-- Settles O41. -/
theorem oneRebuildAtATime : Obligations.OneRebuildAtATime := by
  intro s slot slot' row row' m hf hrb hslot
  refine ⟨execRebuild_of_inProgress hslot hf (by simp [hrb]), fun hne => ?_⟩
  have hfrom := rebuildFrom_of_ne hrb hne
  exact ⟨execRebuildRow_of_inProgress hslot hf hfrom, rebuildMicro_of_inProgress hslot hf hfrom⟩

end Sys2Proof.Proofs

/-! SUPPORT. Before ARM the base of the chain is read by no operation: changing it before an operation changes it after, and
nothing else (O57). -/

namespace Sys2Proof.Proofs

open Sys2Proof.Machine Sys2Proof.Laws

/-- The state with another value in `dma_base`. -/
def withBase (p : Word) (s : State) : State := { s with dmaBase := p }

/-- An answer with its next state, where it has one, changed. -/
def mapNext (f : State → State) : Answer → Answer
  | .next s => .next (f s)
  | .fault r => .fault r
  | .refused r => .refused r

@[simp] theorem mapNext_next (f : State → State) (s : State) : mapNext f (.next s) = .next (f s) := rfl

@[simp] theorem mapNext_refused (f : State → State) (r : Refusal) : mapNext f (.refused r) = .refused r := rfl

@[simp] theorem mapNext_whenEnabled (f : State → State) (p : Prop) [Decidable p] (why : Blocked) (k : Answer) :
    mapNext f (whenEnabled p why k) = whenEnabled p why (mapNext f k) := by
  unfold whenEnabled; split <;> rfl

@[simp] theorem mapNext_whenFaultFree (f : State → State) (s : State) (k : Answer) :
    mapNext f (whenFaultFree s k) = whenFaultFree s (mapNext f k) := mapNext_whenEnabled f _ _ k

@[simp] theorem mapNext_whenSlot (f : State → State) (s : State) (slot : BitVec 2) (k : Answer) :
    mapNext f (whenSlot s slot k) = whenSlot s slot (mapNext f k) := by
  unfold whenSlot; split <;> rfl

@[simp] theorem mapNext_whenInDomain (f : State → State) (p : Prop) [Decidable p] (k : Answer) :
    mapNext f (whenInDomain p k) = whenInDomain p (mapNext f k) := by
  unfold whenInDomain; split <;> rfl

/-! ### The compound updates do not read `dma_base` -/

theorem acquireForWrite_withBase (p : Word) (s : State) :
    acquireForWrite (withBase p s) = withBase p (acquireForWrite s) := by
  unfold acquireForWrite
  simp only [apply_ite (withBase p)]
  rfl

theorem acquireForDisplay_withBase (p : Word) (s : State) :
    acquireForDisplay (withBase p s) = withBase p (acquireForDisplay s) := by
  unfold acquireForDisplay
  simp only [apply_ite (withBase p)]
  rfl

theorem rebuildRest_withBase (slot : BitVec 2) (row : Byte) (m : Nat) (p : Word) (s : State) :
    rebuildRest slot row m (withBase p s) = withBase p (rebuildRest slot row m s) := by
  unfold rebuildRest restColumns
  simp only [apply_ite (withBase p)]
  rfl

theorem rebuildRows_withBase (slot : BitVec 2) (rows : List Byte) (p : Word) (s : State) :
    rebuildRows slot rows (withBase p s) = withBase p (rebuildRows slot rows s) := by
  induction rows generalizing s with
  | nil => rfl
  | cons r rest ih =>
    simp only [rebuildRows, rebuildRest_withBase, ih, apply_ite (withBase p)]
    rfl

/-! ### The operations do not read it either -/

theorem execArm_withBase (b : BufId) (p : Word) (s : State) : execArm b (withBase p s) = execArm b s := rfl

theorem execReset_withBase (p : Word) (s : State) : execReset (withBase p s) = execReset s := rfl

/-- While the chain is not armed STREAM has no step. -/
theorem execStream_of_unarmed {s : State} (h : s.dmaArmed = false) :
    execStream s = whenFaultFree s (.refused (.notEnabled .notArmed)) := by
  rw [execStream, whenEnabled_neg (by simp [h])]

theorem execLineEnd_of_unarmed {s : State} (h : s.dmaArmed = false) :
    execLineEnd s = whenFaultFree s (.refused (.notEnabled .notArmed)) := by
  rw [execLineEnd, whenEnabled_neg (by simp [h])]

/-- While the chain is not armed, an operation that loads no base answers with the base it found. -/
theorem exec_withBase {i : Instr} (harm : ∀ b, i ≠ .arm b) (hreset : i ≠ .reset) (p : Word) {s : State}
    (hs : s.dmaArmed = false) : exec i (withBase p s) = mapNext (withBase p) (exec i s) := by
  cases i with
  | arm b => exact absurd rfl (harm b)
  | reset => exact absurd rfl hreset
  | stream =>
    change execStream (withBase p s) = mapNext _ (execStream s)
    rw [execStream_of_unarmed hs, execStream_of_unarmed (s := withBase p s) hs, mapNext_whenFaultFree]
    rfl
  | lineEnd =>
    change execLineEnd (withBase p s) = mapNext _ (execLineEnd s)
    rw [execLineEnd_of_unarmed hs, execLineEnd_of_unarmed (s := withBase p s) hs, mapNext_whenFaultFree]
    rfl
  | step =>
    simp only [exec, execStep, mapNext_whenFaultFree, mapNext_whenEnabled, apply_ite (mapNext (withBase p)),
      mapNext_whenInDomain]
    rfl
  | acqWrite =>
    simp only [exec, execAcqWrite, mapNext_whenFaultFree, apply_ite (mapNext (withBase p)), mapNext_next,
      acquireForWrite_withBase]
    rfl
  | acqDisplay =>
    simp only [exec, execAcqDisplay, mapNext_whenFaultFree, apply_ite (mapNext (withBase p)), mapNext_next,
      acquireForDisplay_withBase]
    rfl
  | rebuildRow slot row =>
    have hfrom : rebuildFrom (withBase p s) slot row = rebuildFrom s slot row := rfl
    simp only [exec, execRebuildRow, mapNext_whenSlot, mapNext_whenFaultFree, hfrom]
    cases rebuildFrom s slot row with
    | none => rfl
    | some m => simp only [rebuildRest_withBase]; rfl
  | rebuild slot =>
    simp only [exec, execRebuild, mapNext_whenSlot, mapNext_whenFaultFree, mapNext_whenEnabled, mapNext_next,
      rebuildRows_withBase]
    rfl
  | setBuffering en =>
    simp only [exec, execSetBuffering, mapNext_whenFaultFree, apply_ite (mapNext (withBase p))]
    rfl
  | fbWrite slot off val => simp only [exec, execFbWrite, mapNext_whenSlot, mapNext_whenFaultFree]; rfl
  | palBuild => simp only [exec, execPalBuild, mapNext_whenFaultFree]; rfl
  | tplBuild => simp only [exec, execTplBuild, mapNext_whenFaultFree]; rfl
  | palRead idx => simp only [exec, execPalRead, mapNext_whenFaultFree]; rfl
  | clearBuffers => simp only [exec, execClearBuffers, mapNext_whenFaultFree]; rfl
  | reloadSource b => simp only [exec, execReloadSource, mapNext_whenFaultFree]; rfl
  | classify y => simp only [exec, execClassify, mapNext_whenInDomain]; rfl
  | select y => simp only [exec, execSelect, mapNext_whenInDomain]; rfl
  | nextY y => simp only [exec, execNextY, mapNext_whenInDomain]; rfl
  | plainLine k => simp only [exec, execPlainLine, mapNext_whenInDomain]; rfl
  | vsyncLine k => simp only [exec, execVsyncLine, mapNext_whenInDomain]; rfl
  | lane n => rfl
  | addr b => rfl

/-- While the chain is not armed only ARM arms it, and only ARM and RESET load `dma_base`. -/
theorem exec_unarmed_keeps_chain {i : Instr} {s t : State} (hs : s.dmaArmed = false) (harm : ∀ b, i ≠ .arm b)
    (hreset : i ≠ .reset) (h : exec i s = .next t) : t.dmaArmed = false ∧ t.dmaBase = s.dmaBase := by
  cases exec_effect h with
  | reset => exact absurd rfl hreset
  | arm => exact absurd rfl (harm _)
  | emit harmed | unwritten harmed | lineEnd harmed => rw [hs] at harmed; cases harmed
  | step | reloadSource => exact ⟨hs, rfl⟩
  | background hb => exact ⟨hb.scanoutKept.dmaArmed.trans hs, hb.scanoutKept.dmaBase⟩

/-- ARM and RESET load `dma_base` without reading it. -/
theorem exec_withBase_of_loads {i : Instr} (h : (∃ b, i = .arm b) ∨ i = .reset) (p : Word) (s : State) :
    exec i (withBase p s) = exec i s := by
  rcases h with ⟨b, rfl⟩ | rfl
  · exact execArm_withBase b p s
  · exact execReset_withBase p s

/-- Settles O57: ARM and RESET answer the same from both states, the other operations answer alike up to `dma_base`. -/
theorem unarmedBaseIsNeverRead : Obligations.UnarmedBaseIsNeverRead := by
  intro i s p hs
  change (∀ t, exec i s = .next t →
      exec i (withBase p s) = .next t ∧ _ ∨ exec i (withBase p s) = .next (withBase p t) ∧ _) ∧
    ∀ r, exec i s = .refused r → exec i (withBase p s) = .refused r
  by_cases hl : (∃ b, i = .arm b) ∨ i = .reset
  · rw [exec_withBase_of_loads hl]
    exact ⟨fun t h => .inl ⟨h, hl⟩, fun r h => h⟩
  · obtain ⟨harm, hreset⟩ := not_or.mp hl
    have harm : ∀ b, i ≠ .arm b := not_exists.mp harm
    rw [exec_withBase harm hreset p hs]
    refine ⟨fun t h => .inr ⟨by rw [h, mapNext_next], exec_unarmed_keeps_chain hs harm hreset h⟩, fun r h => ?_⟩
    rw [h, mapNext_refused]

end Sys2Proof.Proofs

/-! SUPPORT. Every step keeps the invariant (O12): the registers' part from the effect of each operation on the scanline state
machine and the chain, the memories' part from what each memory operation writes. -/

namespace Sys2Proof.Proofs

open Sys2Proof.Machine Sys2Proof.Laws

/-! ### The invariant in two parts -/

/-- The part of the invariant about the scanline state machine and the transfer chain. -/
structure ScanoutInv (s : State) : Prop where
  yRange : s.y < s.cfg.wholeFrame
  cntRange : s.dmaCnt ≤ s.cfg.lineWords
  srcIsBuf : IsBufAddr s.cfg s.srcPtr
  baseIsBuf : s.dmaArmed = true → IsBufAddr s.cfg s.dmaBase
  irqArmed : s.irqPending = true → s.dmaArmed = true

/-- A rebuild in progress names a slot of the configuration and a micro-step that exists. -/
def RebuildInRange (s : State) : Prop := ∀ r, s.rb = some r → r.next < rebuildSteps s.cfg ∧ r.slot.toNat < s.cfg.fbSlots

/-- With one slot, buffering is on only where the configuration has it on. -/
def OneSlotKept (s : State) : Prop := s.cfg.fbSlots = 1 → s.bufferingMode = true → s.cfg.bufferingInit = true

/-- The part of the invariant about the memories, the rebuild in progress and the buffering mode. -/
structure MemoryInv (s : State) : Prop where
  rbRange : RebuildInRange s
  oneSlotKept : OneSlotKept s
  canonical : CanonicalMemory s
  palette : PaletteBuilt s
  templates : TemplatesBuilt s

theorem inv_iff {s : State} : Inv s ↔ ScanoutInv s ∧ MemoryInv s :=
  ⟨fun h => ⟨⟨h.yRange, h.cntRange, h.srcIsBuf, h.baseIsBuf, h.irqArmed⟩,
      ⟨h.rbRange, h.oneSlotKept, h.canonical, h.palette, h.templates⟩⟩,
    fun ⟨h, h'⟩ => ⟨h.yRange, h.cntRange, h.srcIsBuf, h.baseIsBuf, h.irqArmed,
      h'.rbRange, h'.oneSlotKept, h'.canonical, h'.palette, h'.templates⟩⟩

theorem ScanoutKept.scanoutInv {s t : State} (h : ScanoutKept s t) (hs : ScanoutInv s) : ScanoutInv t where
  yRange := by rw [h.y, h.cfg]; exact hs.yRange
  cntRange := by rw [h.dmaCnt, h.cfg]; exact hs.cntRange
  srcIsBuf := by rw [h.srcPtr, h.cfg]; exact hs.srcIsBuf
  baseIsBuf := by rw [h.dmaArmed, h.dmaBase, h.cfg]; exact hs.baseIsBuf
  irqArmed := by rw [h.irqPending, h.dmaArmed]; exact hs.irqArmed

/-! ### What each part depends on -/

theorem paletteBuilt_congr {s t : State} (hc : t.config = s.config) (hp : t.pal = s.pal) (h : PaletteBuilt s) :
    PaletteBuilt t := by
  intro i
  rw [palEntry_congr hc hp, h i, State.cfg, State.cfg, hc]

theorem rebuildInRange_congr {s t : State} (hc : t.config = s.config) (hrb : t.rb = s.rb) (h : RebuildInRange s) :
    RebuildInRange t := by
  unfold RebuildInRange State.cfg; rw [hc, hrb]; exact h

theorem oneSlotKept_congr {s t : State} (hc : t.config = s.config) (hb : t.bufferingMode = s.bufferingMode)
    (h : OneSlotKept s) : OneSlotKept t := by
  unfold OneSlotKept State.cfg; rw [hc, hb]; exact h

/-- The templates stay as constructed where each byte stays or is written with its constructed content. -/
theorem templatesBuilt_of_bytes {s t : State} (hc : t.config = s.config) (h : TemplatesBuilt s)
    (hb : ∀ k n, n < s.cfg.lineSamples → lineByte t ((addr s.cfg (.tpl k)).toNat + n) = some (tplSample s.cfg k n) ∨
      lineByte t ((addr s.cfg (.tpl k)).toNat + n) = lineByte s ((addr s.cfg (.tpl k)).toNat + n)) : TemplatesBuilt t := by
  intro k n hn
  unfold bufSample State.cfg at *
  rw [hc] at hn ⊢
  rcases hb k n hn with hn' | hn'
  · exact hn'
  · exact hn'.trans (h k n hn)

theorem templatesBuilt_congr {s t : State} (hc : t.config = s.config) (hl : t.line = s.line) (h : TemplatesBuilt s) :
    TemplatesBuilt t :=
  templatesBuilt_of_bytes hc h fun _ _ _ => .inr (lineByte_congr hc hl _)

/-- Writes to prepared lines leave the templates as constructed. -/
theorem templatesBuilt_of_outside {s t : State} (hc : t.config = s.config)
    (ho : ∀ a, (∀ row, ¬ InBuf s.cfg (.prep row) a) → lineByte t a = lineByte s a) (h : TemplatesBuilt s) :
    TemplatesBuilt t := by
  have hw : s.cfg.WellFormed := s.config.ok
  refine templatesBuilt_of_bytes hc h fun k n hn => .inr (ho _ fun row hrow => ?_)
  have hk : InBuf s.cfg (.tpl k) ((addr s.cfg (.tpl k)).toNat + n) :=
    ⟨Nat.le_add_right _ _, Nat.add_lt_add_left (by rw [lineBytes_eq hw]; exact hn) _⟩
  exact absurd (inBuf_unique hw hrow hk) (by simp)

theorem MemoryKept.memoryInv {s t : State} (h : MemoryKept s t) (hs : MemoryInv s) : MemoryInv t where
  rbRange := rebuildInRange_congr h.config h.rb hs.rbRange
  oneSlotKept := oneSlotKept_congr h.config h.bufferingMode hs.oneSlotKept
  canonical := (canonicalMemory_congr h.config h.pal h.line h.fb).mpr hs.canonical
  palette := paletteBuilt_congr h.config h.pal hs.palette
  templates := templatesBuilt_congr h.config h.line hs.templates

/-! ### PAL_BUILD and TPL_BUILD -/

/-- PAL_BUILD writes the constructed content over whatever was there (41_palette.md rule R123). -/
theorem paletteBuilt_storePal_palContent (s : State) : PaletteBuilt (storePal (palContent s.cfg) s) := by
  intro i
  have hi : i.toNat < palEntries := i.isLt
  rw [palEntry_storePal, dif_pos (by simpa [palContent] using hi)]
  simp [palContent, State.cfg]

/-- What writing one template leaves in LINE: its constructed content in the template, everything else as it was. -/
theorem lineByte_buildTpl (k : BitVec 2) (s : State) (a : Nat) :
    lineByte (buildTpl k s) a =
      if InBuf s.cfg (.tpl k) a then some (tplSample s.cfg k (a - (addr s.cfg (.tpl k)).toNat)) else lineByte s a := by
  have hlen : (tplContent s.cfg k).length = s.cfg.lineBytes := by simp [tplContent, lineBytes_eq s.config.ok]
  unfold buildTpl
  rw [lineByte_storeLine]
  by_cases h : InBuf s.cfg (.tpl k) a
  · rw [dif_pos (by rw [hlen]; exact h), if_pos h]
    simp [tplContent]
  · rw [dif_neg (by rw [hlen]; exact h), if_neg h]

theorem templatesBuilt_buildTpl (k : BitVec 2) {s : State} (h : TemplatesBuilt s) : TemplatesBuilt (buildTpl k s) := by
  refine templatesBuilt_of_bytes (buildTpl_config k s) h fun j n hn => ?_
  rw [lineByte_buildTpl]
  split
  · next hin =>
    have hj : InBuf s.cfg (.tpl j) ((addr s.cfg (.tpl j)).toNat + n) :=
      ⟨Nat.le_add_right _ _, Nat.add_lt_add_left (by rw [lineBytes_eq s.config.ok]; exact hn) _⟩
    obtain rfl : k = j := by simpa using inBuf_unique s.config.ok hin hj
    rw [Nat.add_sub_cancel_left]
    exact .inl rfl
  · exact .inr rfl

/-- Writing one template keeps the memories' part of the invariant. -/
theorem memoryInv_buildTpl (k : BitVec 2) {s : State} (hs : MemoryInv s) : MemoryInv (buildTpl k s) where
  rbRange := hs.rbRange
  oneSlotKept := hs.oneSlotKept
  canonical := canonicalMemory_storeLine hs.canonical _ _
  palette := hs.palette
  templates := templatesBuilt_buildTpl k hs.templates

/-! ### FB_WRITE and CLEAR_BUFFERS -/

theorem memoryInv_storeFb (slot : BitVec 2) (off : Nat) (vs : List Byte) {s : State} (hs : MemoryInv s) :
    MemoryInv (storeFb slot off vs s) :=
  ⟨hs.rbRange, hs.oneSlotKept, canonicalMemory_storeFb hs.canonical slot off vs, hs.palette, hs.templates⟩

theorem memoryKept_clearRotation (s : State) : MemoryKept s (clearRotation s) := ⟨rfl, rfl, rfl, rfl, rfl, rfl⟩

/-! ### Rebuilds -/

/-- The micro-step a rebuild goes on from exists. -/
theorem rebuildFrom_lt {s : State} {slot : BitVec 2} {row : Byte} {m : Nat} (hs : RebuildInRange s)
    (h : rebuildFrom s slot row = some m) : m < rebuildSteps s.cfg := by
  unfold rebuildFrom at h
  split at h
  · obtain rfl : 0 = m := by simpa using h
    unfold rebuildSteps fbStride; omega
  · next r hr =>
    obtain ⟨-, rfl⟩ : (r.slot = slot ∧ r.row = row) ∧ r.next = m := by simpa using h
    exact (hs r hr).1

/-- A rebuild that stops at an unwritten byte leaves the micro-step of that column in `rb`. -/
theorem rebuildInRange_rebuildRest {slot : BitVec 2} {s : State} (hslot : slot.toNat < s.cfg.fbSlots) (row : Byte) (m : Nat) :
    RebuildInRange (rebuildRest slot row m s) := by
  intro r hr
  rw [State.cfg, rebuildRest_config]
  rw [rebuildRest, restColumns_frame] at hr
  split at hr
  · next hc =>
    obtain rfl := Option.some.inj hr
    exact ⟨Nat.add_lt_add_left hc _, hslot⟩
  · cases hr

theorem rebuildInRange_rebuildRows {slot : BitVec 2} (rows : List Byte) {s : State} (hslot : slot.toNat < s.cfg.fbSlots)
    (hs : RebuildInRange s) : RebuildInRange (rebuildRows slot rows s) := by
  induction rows generalizing s with
  | nil => exact hs
  | cons r rest ih =>
    have hr := rebuildInRange_rebuildRest hslot r 0
    simp only [rebuildRows]
    split
    · exact ih (by rw [State.cfg, rebuildRest_config]; exact hslot) hr
    · exact hr

/-- After a micro-step that exists `rb` names the next one, if there is one, or at a fault the same one. -/
theorem rebuildInRange_rebuildAccess {slot : BitVec 2} {s : State} (hslot : slot.toNat < s.cfg.fbSlots) (row : Byte) {m : Nat}
    (hm : m < rebuildSteps s.cfg) : RebuildInRange (rebuildAccess slot row m s) := by
  have hmark : ∀ r, rebuildMark s.cfg slot row (m + 1) = some r →
      r.next < rebuildSteps s.cfg ∧ r.slot.toNat < s.cfg.fbSlots := by
    intro r hr
    unfold rebuildMark at hr
    split at hr
    · next hlt =>
      obtain rfl := Option.some.inj hr
      exact ⟨hlt, hslot⟩
    · cases hr
  unfold rebuildAccess
  extract_lets col
  split
  · exact hmark
  · split
    · exact hmark
    · intro r hr
      obtain rfl := Option.some.inj hr
      exact ⟨hm, hslot⟩

/-- A micro-step that exists writes no byte outside its prepared line. -/
theorem lineByte_rebuildAccess_outside {slot : BitVec 2} {row : Byte} {m : Nat} {s : State} {a : Nat}
    (hm : m < rebuildSteps s.cfg) (h : ¬ InBuf s.cfg (.prep row) a) :
    lineByte (rebuildAccess slot row m s) a = lineByte s a := by
  have hw : s.cfg.WellFormed := s.config.ok
  have hb := lineBytes_eq hw
  have ha : s.cfg.activeStart + activeSamples ≤ s.cfg.lineSamples := hw.activeFits
  unfold rebuildSteps fbStride at hm
  unfold activeSamples at ha
  unfold InBuf at h
  unfold rebuildAccess
  extract_lets col
  split
  · rw [lineByte_setRb, lineByte_storeLine, dif_neg]
    simp only [prepSample, List.length_singleton]
    omega
  · split
    · rw [lineByte_setRb, lineByte_storeLine, dif_neg]
      simp only [prepSample, palBytes, List.length_cons, List.length_nil]
      omega
    · rfl

theorem memoryInv_rebuildRest {slot : BitVec 2} {s : State} (hs : MemoryInv s) (hslot : slot.toNat < s.cfg.fbSlots)
    (row : Byte) (m : Nat) : MemoryInv (rebuildRest slot row m s) where
  rbRange := rebuildInRange_rebuildRest hslot row m
  oneSlotKept := oneSlotKept_congr (rebuildRest_config ..) (by rw [rebuildRest_frame]) hs.oneSlotKept
  canonical := canonicalMemory_rebuildRest hs.canonical slot row m
  palette := paletteBuilt_congr (rebuildRest_config ..) (rebuildRest_pal ..) hs.palette
  templates := templatesBuilt_of_outside (rebuildRest_config ..) (fun _ ha => lineByte_rebuildRest_outside (ha row))
    hs.templates

theorem memoryInv_rebuildRows {slot : BitVec 2} {s : State} (hs : MemoryInv s) (hslot : slot.toNat < s.cfg.fbSlots)
    (rows : List Byte) : MemoryInv (rebuildRows slot rows s) where
  rbRange := rebuildInRange_rebuildRows rows hslot hs.rbRange
  oneSlotKept := oneSlotKept_congr (rebuildRows_config ..) (by rw [rebuildRows_frame]) hs.oneSlotKept
  canonical := canonicalMemory_rebuildRows hs.canonical slot rows
  palette := paletteBuilt_congr (rebuildRows_config ..) (by rw [rebuildRows_frame]) hs.palette
  templates := templatesBuilt_of_outside (rebuildRows_config ..) (fun _ ha => lineByte_rebuildRows_outside fun r _ => ha r)
    hs.templates

theorem memoryInv_rebuildAccess {slot : BitVec 2} {s : State} (hs : MemoryInv s) (hslot : slot.toNat < s.cfg.fbSlots)
    (row : Byte) {m : Nat} (hm : m < rebuildSteps s.cfg) : MemoryInv (rebuildAccess slot row m s) where
  rbRange := rebuildInRange_rebuildAccess hslot row hm
  oneSlotKept := oneSlotKept_congr (rebuildAccess_config ..) (by rw [rebuildAccess_frame]) hs.oneSlotKept
  canonical := canonicalMemory_rebuildAccess hs.canonical slot row m
  palette := paletteBuilt_congr (rebuildAccess_config ..) (by rw [rebuildAccess_frame]) hs.palette
  templates := templatesBuilt_of_outside (rebuildAccess_config ..)
    (fun _ ha => lineByte_rebuildAccess_outside hm (ha row)) hs.templates

/-! ### Operations, micro-steps and steps keep the invariant -/

theorem BackgroundEffect.memoryInv {s t : State} {i : Instr} (h : BackgroundEffect s i t) (hs : MemoryInv s) : MemoryInv t := by
  cases h with
  | palBuild =>
    exact ⟨hs.rbRange, hs.oneSlotKept, canonicalMemory_storePal hs.canonical _, paletteBuilt_storePal_palContent s,
      hs.templates⟩
  | tplBuild =>
    exact memoryInv_buildTpl 3 (memoryInv_buildTpl 2 (memoryInv_buildTpl 1 (memoryInv_buildTpl 0 hs)))
  | rebuildRow hslot => exact memoryInv_rebuildRest hs hslot _ _
  | rebuild hslot => exact memoryInv_rebuildRows hs hslot _
  | fbWrite => exact memoryInv_storeFb _ _ _ hs
  | clearBuffers => exact (memoryKept_clearRotation _).memoryInv (memoryInv_storeFb _ _ _ hs)
  | setBuffering hen =>
    exact ⟨hs.rbRange, fun h1 he => absurd ⟨he, h1⟩ hen, hs.canonical, hs.palette, hs.templates⟩
  | acqWrite => exact (memoryKept_acquireForWrite s).memoryInv hs
  | acqDisplay => exact (memoryKept_acquireForDisplay s).memoryInv hs
  | returns => exact MemoryKept.memoryInv (s := s) ⟨rfl, rfl, rfl, rfl, rfl, rfl⟩ hs

theorem ExecEffect.memoryInv {s t : State} {i : Instr} (h : ExecEffect s i t) (hs : MemoryInv s) : MemoryInv t := by
  cases h with
  | reset => exact (inv_iff.mp (inv_resetBlock s)).2
  | background hb => exact hb.memoryInv hs
  | arm | emit | unwritten | lineEnd | step | reloadSource =>
    exact MemoryKept.memoryInv (s := s) ⟨rfl, rfl, rfl, rfl, rfl, rfl⟩ hs

theorem ExecEffect.scanoutInv {s t : State} {i : Instr} (h : ExecEffect s i t) (hs : ScanoutInv s) : ScanoutInv t := by
  cases h with
  | reset => exact (inv_iff.mp (inv_resetBlock s)).1
  | arm => exact ⟨hs.yRange, Nat.zero_le _, hs.srcIsBuf, fun _ => ⟨_, rfl⟩, fun _ => rfl⟩
  | emit _ hcnt => exact ⟨hs.yRange, hcnt, hs.srcIsBuf, hs.baseIsBuf, hs.irqArmed⟩
  | unwritten => exact ⟨hs.yRange, hs.cntRange, hs.srcIsBuf, hs.baseIsBuf, hs.irqArmed⟩
  | lineEnd harmed => exact ⟨hs.yRange, Nat.zero_le _, hs.srcIsBuf, fun _ => hs.srcIsBuf, fun _ => harmed⟩
  | step hy => exact ⟨nextY_lt s.config.ok hy, hs.cntRange, ⟨_, rfl⟩, hs.baseIsBuf, fun hirq => by simp at hirq⟩
  | reloadSource => exact ⟨hs.yRange, hs.cntRange, ⟨_, rfl⟩, hs.baseIsBuf, hs.irqArmed⟩
  | background hb => exact hb.scanoutKept.scanoutInv hs

/-- Every operation keeps the invariant. -/
theorem exec_inv {i : Instr} {s t : State} (hs : Inv s) (h : exec i s = .next t) : Inv t :=
  have ⟨hsc, hmem⟩ := inv_iff.mp hs
  inv_iff.mpr ⟨(exec_effect h).scanoutInv hsc, (exec_effect h).memoryInv hmem⟩

/-- Every micro-step of a rebuild keeps the invariant. -/
theorem rebuildMicro_inv {slot : BitVec 2} {row : Byte} {s t : State} (hs : Inv s) (h : rebuildMicro slot row s = .next t) :
    Inv t := by
  have hkept := rebuildMicro_scanoutKept h
  obtain ⟨hslot, -, m, hm, rfl⟩ := rebuildMicro_next.mp h
  obtain ⟨hsc, hmem⟩ := inv_iff.mp hs
  exact inv_iff.mpr ⟨hkept.scanoutInv hsc, memoryInv_rebuildAccess hmem hslot row (rebuildFrom_lt hmem.rbRange hm)⟩

theorem inv_popTurn {s : State} (hs : Inv s) : Inv (popTurn s) :=
  ⟨hs.yRange, hs.cntRange, hs.srcIsBuf, hs.baseIsBuf, hs.irqArmed, hs.rbRange, hs.oneSlotKept, hs.canonical, hs.palette,
    hs.templates⟩

/-- Settles O12: dropping a turn, every operation and every micro-step keep the invariant, and so does a step. -/
theorem stepKeepsInvariant : Obligations.StepKeepsInvariant := fun _ _ hs h =>
  step_keeps (P := Inv) (fun _ => inv_popTurn) (fun _ _ _ => exec_inv) (fun _ _ _ _ => rebuildMicro_inv) hs h

end Sys2Proof.Proofs

/-! SUPPORT. Which operations write the prepared lines, the frame buffers and the published pointer (O55). -/

namespace Sys2Proof.Proofs

open Sys2Proof.Machine Sys2Proof.Laws

/-! ### Memories an update leaves alone -/

theorem MemoryKept.lineByte_eq {s t : State} (h : MemoryKept s t) (a : Nat) : lineByte t a = lineByte s a :=
  lineByte_congr h.config h.line a

theorem MemoryKept.fbByte_eq {s t : State} (h : MemoryKept s t) (slot : BitVec 2) (off : Nat) :
    fbByte t slot off = fbByte s slot off :=
  fbByte_congr h.fb slot off

/-! ### The writer of each memory -/

/-- A byte of a prepared line stays, or the operation is a rebuild. -/
theorem BackgroundEffect.prep_kept_or_rebuild {s t : State} {i : Instr} (h : BackgroundEffect s i t) {r : Byte} {a : Nat}
    (hin : InBuf s.cfg (.prep r) a) :
    lineByte t a = lineByte s a ∨ (∃ slot row, i = .rebuildRow slot row) ∨ ∃ slot, i = .rebuild slot := by
  cases h with
  | rebuildRow => exact .inr (.inl ⟨_, _, rfl⟩)
  | rebuild => exact .inr (.inr ⟨_, rfl⟩)
  | tplBuild =>
    have hout : ∀ k, ¬ InBuf s.cfg (.tpl k) a := fun k hk => absurd (inBuf_unique s.config.ok hin hk) (by simp)
    exact .inl (by simp [lineByte_buildTpl, State.cfg, hout])
  | acqWrite => exact .inl ((memoryKept_acquireForWrite s).lineByte_eq a)
  | acqDisplay => exact .inl ((memoryKept_acquireForDisplay s).lineByte_eq a)
  | palBuild | fbWrite | clearBuffers | setBuffering | returns => exact .inl rfl

/-- A byte of a frame buffer stays, or the operation is FB_WRITE or CLEAR_BUFFERS. -/
theorem BackgroundEffect.fb_kept_or_written {s t : State} {i : Instr} (h : BackgroundEffect s i t) (slot : BitVec 2)
    (off : Nat) :
    fbByte t slot off = fbByte s slot off ∨ (∃ slot off val, i = .fbWrite slot off val) ∨ i = .clearBuffers := by
  cases h with
  | fbWrite => exact .inr (.inl ⟨_, _, _, rfl⟩)
  | clearBuffers => exact .inr (.inr rfl)
  | rebuildRow => exact .inl (fbByte_congr (rebuildRest_fb ..) slot off)
  | rebuild => exact .inl (fbByte_congr (by rw [rebuildRows_frame]) slot off)
  | acqWrite => exact .inl ((memoryKept_acquireForWrite s).fbByte_eq slot off)
  | acqDisplay => exact .inl ((memoryKept_acquireForDisplay s).fbByte_eq slot off)
  | palBuild | tplBuild | setBuffering | returns => exact .inl rfl

/-- The operations outside the background ones write no byte of any memory, RESET aside. -/
theorem ExecEffect.memoryKept_or_background {s t : State} {i : Instr} (h : ExecEffect s i t) (hreset : i ≠ .reset) :
    MemoryKept s t ∨ BackgroundEffect s i t := by
  cases h with
  | reset => exact absurd rfl hreset
  | background hb => exact .inr hb
  | arm | emit | unwritten | lineEnd | step | reloadSource => exact .inl ⟨rfl, rfl, rfl, rfl, rfl, rfl⟩

/-- The published pointer stays, or the operation is STEP or RELOAD_SOURCE, RESET aside. -/
theorem ExecEffect.srcPtr_kept_or_published {s t : State} {i : Instr} (h : ExecEffect s i t) (hreset : i ≠ .reset) :
    t.srcPtr = s.srcPtr ∨ i = .step ∨ ∃ b, i = .reloadSource b := by
  cases h with
  | reset => exact absurd rfl hreset
  | step => exact .inr (.inl rfl)
  | reloadSource => exact .inr (.inr ⟨_, rfl⟩)
  | background hb => exact .inl hb.scanoutKept.srcPtr
  | arm | emit | unwritten | lineEnd => exact .inl rfl

/-- Settles O55: each memory's bytes stay unless the operation is one of its writers. -/
theorem memoriesHaveOneWriter : Obligations.MemoriesHaveOneWriter := by
  intro i s t h hreset
  have heff := exec_effect h
  refine ⟨fun r a hin hne => ?_, fun slot off hne => ?_, (heff.srcPtr_kept_or_published hreset).resolve_left⟩
  · rcases heff.memoryKept_or_background hreset with hkept | hb
    · exact absurd (hkept.lineByte_eq a) hne
    · exact (hb.prep_kept_or_rebuild hin).resolve_left hne
  · rcases heff.memoryKept_or_background hreset with hkept | hb
    · exact absurd (hkept.fbByte_eq slot off) hne
    · exact (hb.fb_kept_or_written slot off).resolve_left hne

end Sys2Proof.Proofs

/-! SUPPORT. Steps with no turn and micro turns (O10); STREAM at a word in no line buffer (O26); the order of a word's samples on
the wire (O33). -/

namespace Sys2Proof.Proofs

open Sys2Proof.Machine Sys2Proof.Laws

/-! ### The turns -/

theorem popTurn_eq {s : State} {turn : Turn} {rest : List Turn} (h : s.schedule = turn :: rest) :
    popTurn s = { s with schedule := rest } := by
  rw [popTurn, h, List.tail_cons]

/-- Settles O10. -/
theorem stepOnOtherTurns : Obligations.StepOnOtherTurns := by
  intro s
  refine ⟨fun hnil => step_eq_next.mpr (.inl ⟨hnil, rfl⟩), fun slot row ts hturn => ?_, fun _ _ => rfl⟩
  rw [← popTurn_eq hturn]
  exact ⟨fun t ht => step_eq_next.mpr (.inr ⟨_, _, hturn, .inl ht⟩),
    fun why hwhy => step_eq_next.mpr (.inr ⟨_, _, hturn, .inr ⟨⟨why, hwhy⟩, rfl⟩⟩)⟩

/-! ### STREAM outside the line buffers -/

/-- The addresses of LINE are those of the line buffers (20_memory.md rule R42). -/
theorem lineMapped_iff {c : Config} (hw : c.WellFormed) {a : Nat} : lineMapped c a = true ↔ ∃ b, InBuf c b a := by
  refine ⟨fun h => ?_, fun ⟨b, hb⟩ => lineMapped_of_inBuf hw hb⟩
  simp only [lineMapped, Bool.or_eq_true, Option.isSome_iff_exists] at h
  rcases h with ⟨k, hk⟩ | ⟨r, hr⟩
  · exact ⟨.tpl k, (tplAt_eq_some hw).mp hk⟩
  · exact ⟨.prep r, (prepAt_eq_some hw).mp hr⟩

theorem lineMapped_of_wordMapped {c : Config} {a j : Nat} (h : wordMapped c a = true) (hj : j < 4) :
    lineMapped c (a + j) = true := by
  simp only [wordMapped, Bool.and_eq_true] at h
  obtain ⟨⟨⟨h0, h1⟩, h2⟩, h3⟩ := h
  interval_cases j
  exacts [h0, h1, h2, h3]

/-- Settles O26: a word with a byte in no line buffer is no word of LINE. -/
theorem streamOutsideTheBuffersStops : Obligations.StreamOutsideTheBuffersStops := by
  intro s hf harmed hcnt ⟨j, hj, hout⟩
  refine execStream_fault hf harmed hcnt (Bool.eq_false_iff.mpr fun hmapped => ?_)
  obtain ⟨b, hb⟩ := (lineMapped_iff s.config.ok).mp (lineMapped_of_wordMapped hmapped hj)
  exact hout b hb

/-! ### The samples of a word -/

/-- The low byte of a word. -/
theorem extractLsb'_low_byte {n : Nat} (hi : BitVec n) (lo : Byte) : (hi ++ lo).extractLsb' 0 8 = lo := by
  rw [BitVec.extractLsb'_append_eq_of_add_le (Nat.le_refl 8), BitVec.extractLsb'_eq_self]

/-- A byte above the low byte. -/
theorem extractLsb'_above_low_byte {n : Nat} (hi : BitVec n) (lo : Byte) (k : Nat) :
    (hi ++ lo).extractLsb' (8 + k) 8 = hi.extractLsb' k 8 := by
  rw [BitVec.extractLsb'_append_eq_of_le (Nat.le_add_right 8 k), Nat.add_sub_cancel_left]

/-- A word's samples on the wire are the bytes it was read from (20_memory.md rules R43, R44). -/
@[simp] theorem wireSamples_scanWord (b0 b1 b2 b3 : Byte) : wireSamples (scanWord b0 b1 b2 b3) = [b0, b1, b2, b3] := by
  have h0 : (scanWord b0 b1 b2 b3).extractLsb' 0 8 = b0 := extractLsb'_low_byte _ b0
  have h1 : (scanWord b0 b1 b2 b3).extractLsb' 8 8 = b1 :=
    (extractLsb'_above_low_byte _ b0 0).trans (extractLsb'_low_byte _ b1)
  have h2 : (scanWord b0 b1 b2 b3).extractLsb' 16 8 = b2 :=
    (extractLsb'_above_low_byte _ b0 8).trans <|
      (extractLsb'_above_low_byte _ b1 0).trans (extractLsb'_low_byte _ b2)
  have h3 : (scanWord b0 b1 b2 b3).extractLsb' 24 8 = b3 :=
    (extractLsb'_above_low_byte _ b0 16).trans <|
      (extractLsb'_above_low_byte _ b1 8).trans BitVec.extractLsb'_append_eq_left
  rw [wireSamples, h0, h1, h2, h3]

/-- Settles O33. -/
theorem wireOrderIsAddressOrder : Obligations.WireOrderIsAddressOrder := by
  intro s a b0 b1 b2 b3 h0 h1 h2 h3
  have hword : lineWord s a = some (scanWord b0 b1 b2 b3) :=
    lineWord_eq_some.mpr ⟨b0, b1, b2, b3, h0, h1, h2, h3, rfl⟩
  rw [hword, Option.map_some, wireSamples_scanWord]

end Sys2Proof.Proofs

/-! SUPPORT. Event words (30_encoding.md): their fields and selectors, the opcode map (O7), the round trips of the encoder and the
decoder (O3, O4), words and selectors written out (O5, O8), and the step that performs or refuses an event word (O6, O9). -/

namespace Sys2Proof.Proofs

open Sys2Proof.Machine Sys2Proof.Laws

/-! ### The fields of an event word (30_encoding.md rule R81) -/

section
variable (op : BitVec 4) (slot : BitVec 2) (off : BitVec 15) (low : Byte) (b : BufId)

@[simp] theorem fieldSlot_eventWord : fieldSlot (eventWord op slot off low) = slot := by
  rw [fieldSlot, eventWord, BitVec.extractLsb'_append_eq_of_le (by decide), BitVec.extractLsb'_append_eq_of_le (by decide),
    BitVec.extractLsb'_append_eq_of_le (by decide)]
  exact BitVec.extractLsb'_append_eq_right

@[simp] theorem fieldOff_eventWord : fieldOff (eventWord op slot off low) = off := by
  rw [fieldOff, eventWord, BitVec.extractLsb'_append_eq_of_le (by decide)]
  exact BitVec.extractLsb'_append_eq_right

@[simp] theorem fieldLow_eventWord : fieldLow (eventWord op slot off low) = low := BitVec.extractLsb'_append_eq_right

@[simp] theorem fieldSel_eventWordSel : fieldSel (eventWordSel op b) = b.sel := BitVec.extractLsb'_append_eq_right

end

/-- A word is its fields, where the bits between them are 0. -/
theorem eventWord_of_fields {w : Word} (h26 : w.extractLsb' 26 2 = 0) (h23 : w.extractLsb' 23 1 = 0) :
    eventWord (fieldOp w) (fieldSlot w) (fieldOff w) (fieldLow w) = w := by
  unfold eventWord
  calc fieldOp w ++ 0#2 ++ fieldSlot w ++ 0#1 ++ fieldOff w ++ fieldLow w
    _ = fieldOp w ++ w.extractLsb' 26 2 ++ fieldSlot w ++ w.extractLsb' 23 1 ++ fieldOff w ++ fieldLow w := by rw [h26, h23]; rfl
    _ = w.extractLsb' 0 32 := by
      simp only [fieldOp, fieldSlot, fieldOff, fieldLow, BitVec.extractLsb'_append_extractLsb'_eq_extractLsb']
    _ = w := BitVec.extractLsb'_eq_self

/-- The same for a word with a selector. -/
theorem eventWordSel_of_fields {w : Word} {b : BufId} (h9 : w.extractLsb' 9 19 = 0) (hsel : b.sel = fieldSel w) :
    eventWordSel (fieldOp w) b = w := by
  unfold eventWordSel
  calc fieldOp w ++ 0#19 ++ b.sel
    _ = fieldOp w ++ w.extractLsb' 9 19 ++ fieldSel w := by rw [h9, hsel]; rfl
    _ = w.extractLsb' 0 32 := by simp only [fieldOp, fieldSel, BitVec.extractLsb'_append_extractLsb'_eq_extractLsb']
    _ = w := BitVec.extractLsb'_eq_self

/-! ### Buffer selectors (30_encoding.md rule R77) -/

theorem bufOfSel_sel (b : BufId) : bufOfSel b.sel = some b := by
  cases b with
  | prep r =>
    have hbit : (0#1 ++ r).extractLsb' 8 1 = 0 := BitVec.extractLsb'_append_eq_left
    have hrow : (0#1 ++ r).extractLsb' 0 8 = r := BitVec.extractLsb'_append_eq_right
    rw [bufOfSel, BufId.sel, if_pos hbit, hrow]
  | tpl k => revert k; decide

/-- A selector that names a buffer is that buffer's selector. -/
theorem sel_of_bufOfSel {sel : BitVec 9} {b : BufId} (h : bufOfSel sel = some b) : b.sel = sel := by
  unfold bufOfSel at h
  split at h
  case isTrue hbit =>
    cases h
    calc 0#1 ++ sel.extractLsb' 0 8 = sel.extractLsb' 8 1 ++ sel.extractLsb' 0 8 := by rw [hbit]; rfl
      _ = sel := BitVec.extractLsb'_append_extractLsb'
  case isFalse hbit =>
    have hbit : sel.extractLsb' 8 1 = 1 := (BitVec.eq_zero_or_eq_one _).resolve_left hbit
    split at h
    case isTrue hzero =>
      cases h
      calc 1#1 ++ 0#6 ++ sel.extractLsb' 0 2 = sel.extractLsb' 8 1 ++ sel.extractLsb' 2 6 ++ sel.extractLsb' 0 2 := by
            rw [hbit, hzero]; rfl
        _ = sel.extractLsb' 0 9 := by simp only [BitVec.extractLsb'_append_extractLsb'_eq_extractLsb']
        _ = sel := BitVec.extractLsb'_eq_self
    case isFalse => cases h

/-- The reserved selectors: bit 8 set and a bit of 7:2 set. -/
theorem bufOfSel_eq_none {sel : BitVec 9} : bufOfSel sel = none ↔ sel.extractLsb' 8 1 = 1 ∧ sel.extractLsb' 2 6 ≠ 0 := by
  rw [bufOfSel]
  rcases BitVec.eq_zero_or_eq_one (sel.extractLsb' 8 1) with hbit | hbit <;> simp [hbit]

/-! ### The opcode map (30_encoding.md rule R82) -/

/-- The word has the pattern of the row `op`: no bit outside that operation's fields is set. -/
abbrev MatchesRow (op : BitVec 4) (w : Word) : Prop := w &&& (opRow op).mask = (opRow op).pattern

/-- Bits that a mask keeps are the pattern's in every word that matches. -/
theorem extractLsb'_of_match {w mask pattern : Word} {start len : Nat} (h : w &&& mask = pattern)
    (hmask : mask.extractLsb' start len = BitVec.allOnes len) : w.extractLsb' start len = pattern.extractLsb' start len := by
  rw [← h, BitVec.extractLsb'_and, hmask, BitVec.and_allOnes]

theorem fieldOp_of_match {w : Word} {op : BitVec 4} (h : MatchesRow op w) : fieldOp w = op := by
  have hmask : ∀ op, (opRow op).mask.extractLsb' 28 4 = BitVec.allOnes 4 := by decide
  have hpattern : ∀ op, (opRow op).pattern.extractLsb' 28 4 = op := by decide
  exact (extractLsb'_of_match h (hmask op)).trans (hpattern op)

/-- Settles O7: the `op` field of a word that matches a row is that row's. -/
theorem oneOpcodeRowMatches : Obligations.OneOpcodeRowMatches := fun _ _ _ hp hq =>
  (fieldOp_of_match hp).symm.trans (fieldOp_of_match hq)

/-- No row has an operand in bits 27:26 or 23, so they are 0 in every word that matches. -/
theorem unusedBits_of_match {w : Word} {op : BitVec 4} (h : MatchesRow op w) :
    w.extractLsb' 26 2 = 0 ∧ w.extractLsb' 23 1 = 0 := by
  have hmask26 : ∀ op, (opRow op).mask.extractLsb' 26 2 = BitVec.allOnes 2 := by decide
  have hmask23 : ∀ op, (opRow op).mask.extractLsb' 23 1 = BitVec.allOnes 1 := by decide
  have hpattern26 : ∀ op, (opRow op).pattern.extractLsb' 26 2 = 0 := by decide
  have hpattern23 : ∀ op, (opRow op).pattern.extractLsb' 23 1 = 0 := by decide
  exact ⟨(extractLsb'_of_match h (hmask26 op)).trans (hpattern26 op), (extractLsb'_of_match h (hmask23 op)).trans (hpattern23 op)⟩

theorem decode_eq_decodeFields {w : Word} (h : MatchesRow (fieldOp w) w) : decode w = decodeFields w := if_pos h

theorem decode_eq_bits {w : Word} (h : ¬ MatchesRow (fieldOp w) w) : decode w = .error .bits := if_neg h

/-! ### Decoding the encoder's words (O3) -/

/-- A slot the configuration has is not the reserved slot 3. -/
theorem slot_ne_three {c : Config} (hc : c.WellFormed) {slot : BitVec 2} (h : slot.toNat < c.fbSlots) : slot ≠ 3 := by
  rintro rfl
  have h3 : 3 < c.fbSlots := h
  rcases hc.slots with hs | hs <;> omega

theorem decodeSlot_eventWord {slot : BitVec 2} (h : slot ≠ 3) (op : BitVec 4) (off : BitVec 15) (low : Byte)
    (k : BitVec 2 → Instr) : decodeSlot (eventWord op slot off low) k = .ok (k slot) := by
  rw [decodeSlot, fieldSlot_eventWord, if_neg h]

theorem decodeSel_eventWordSel (op : BitVec 4) (b : BufId) (k : BufId → Instr) : decodeSel (eventWordSel op b) k = .ok (k b) := by
  rw [decodeSel, fieldSel_eventWordSel, bufOfSel_sel]

/-- Settles O3. An encoder's word matches its row (`Encoding.Statement`) and its fields are the operands. -/
theorem decodeOfEncodeIsIdentity : Obligations.DecodeOfEncodeIsIdentity := by
  intro c i w hc hwf henc
  cases i with
  | classify | select | nextY | lane | addr | plainLine | vsyncLine => cases henc
  | reset | stream | lineEnd | step | palBuild | tplBuild | acqWrite | acqDisplay | clearBuffers => cases henc; rfl
  | setBuffering en => cases henc; cases en <;> rfl
  | arm b =>
    cases henc
    rw [decode_eq_decodeFields (Encoding.arm b _ rfl), decodeFields, fieldOp_eventWordSel]
    exact decodeSel_eventWordSel _ b _
  | reloadSource b =>
    cases henc
    rw [decode_eq_decodeFields (Encoding.reloadSource b _ rfl), decodeFields, fieldOp_eventWordSel]
    exact decodeSel_eventWordSel _ b _
  | palRead idx =>
    cases henc
    rw [decode_eq_decodeFields (Encoding.palRead idx _ rfl), decodeFields, fieldOp_eventWord, fieldLow_eventWord]
    rfl
  | rebuildRow slot row =>
    have hslot := slot_ne_three hc (of_decide_eq_true hwf)
    cases henc
    rw [decode_eq_decodeFields (Encoding.rebuildRow slot row _ rfl), decodeFields, fieldOp_eventWord, fieldLow_eventWord]
    exact decodeSlot_eventWord hslot _ _ _ _
  | rebuild slot =>
    have hslot := slot_ne_three hc (of_decide_eq_true hwf)
    cases henc
    rw [decode_eq_decodeFields (Encoding.rebuild slot _ rfl), decodeFields, fieldOp_eventWord]
    exact decodeSlot_eventWord hslot _ _ _ _
  | fbWrite slot off val =>
    have hslot := slot_ne_three hc (of_decide_eq_true hwf)
    cases henc
    rw [decode_eq_decodeFields (Encoding.fbWrite slot off val _ rfl), decodeFields, fieldOp_eventWord, fieldOff_eventWord,
      fieldLow_eventWord]
    exact decodeSlot_eventWord hslot _ _ _ _

/-! ### What the decoder answers a word of a row (O4) -/

/-- The operations with a slot operand. -/
abbrev HasSlot (op : BitVec 4) : Prop := op = 0x8 ∨ op = 0x9 ∨ op = 0xA

/-- The operations with a buffer selector. -/
abbrev HasSel (op : BitVec 4) : Prop := op = 0x1 ∨ op = 0xF

/-- How a word that matches the row `op` decodes: with a slot, with a selector, or always; and what it decodes to has this event
word. -/
inductive RowDecoding (op : BitVec 4) (w : Word) : Prop where
  | slot (k : BitVec 2 → Instr) (hop : HasSlot op) (hdecode : decode w = decodeSlot w k)
      (hencode : encode (k (fieldSlot w)) = some w)
  | sel (k : BufId → Instr) (hop : HasSel op) (hdecode : decode w = decodeSel w k)
      (hencode : ∀ b, bufOfSel (fieldSel w) = some b → encode (k b) = some w)
  | plain (i : Instr) (hslot : ¬ HasSlot op) (hsel : ¬ HasSel op) (hdecode : decode w = .ok i) (hencode : encode i = some w)

/-- A word that matches a row is the event word of its fields. -/
theorem eventWord_of_match {w : Word} {op : BitVec 4} (h : MatchesRow op w) :
    eventWord op (fieldSlot w) (fieldOff w) (fieldLow w) = w := by
  obtain ⟨h26, h23⟩ := unusedBits_of_match h
  rw [← fieldOp_of_match h, eventWord_of_fields h26 h23]

/-- The same for a row with a selector. -/
theorem eventWordSel_of_match {w : Word} {op : BitVec 4} (h : MatchesRow op w) (hop : HasSel op)
    {b : BufId} (hb : bufOfSel (fieldSel w) = some b) : eventWordSel op b = w := by
  have h9 : w.extractLsb' 9 19 = 0 := by
    rcases hop with rfl | rfl <;> exact extractLsb'_of_match h rfl
  rw [← fieldOp_of_match h, eventWordSel_of_fields h9 (sel_of_bufOfSel hb)]

/-- The low byte of SET_BUFFERING is its `en` bit. -/
theorem fieldLow_of_en {w : Word} (h : w.extractLsb' 1 7 = 0) : fieldLow w = if fieldEn w then 1 else 0 := by
  have hlow : fieldLow w = w.extractLsb' 1 7 ++ w.extractLsb' 0 1 :=
    (BitVec.extractLsb'_append_extractLsb'_eq_extractLsb' (Nat.zero_add 1).symm).symm
  have hen : fieldEn w = (w.extractLsb' 0 1 == 1) := BitVec.getElem_eq_extractLsb' w 0 (by decide)
  rw [hlow, hen, h]
  rcases BitVec.eq_zero_or_eq_one (w.extractLsb' 0 1) with hbit | hbit <;> rw [hbit] <;> rfl

/-- An operation without operands has one word, its pattern. -/
theorem RowDecoding.of_noOperand {w : Word} {op : BitVec 4} {i : Instr} (h : MatchesRow op w) (hdecode : decode w = .ok i)
    (hmask : (opRow op).mask = BitVec.allOnes 32) (hencode : encode i = some (opRow op).pattern) : RowDecoding op w := by
  have hplain : ∀ op, (opRow op).mask = BitVec.allOnes 32 → ¬ HasSlot op ∧ ¬ HasSel op := by decide
  have hw : w = (opRow op).pattern := by rw [← h, hmask, BitVec.and_allOnes]
  obtain ⟨hslot, hsel⟩ := hplain op hmask
  exact .plain i hslot hsel hdecode (hw ▸ hencode)

/-- Row by row: an operand that the row does not have is 0 in the word. -/
theorem RowDecoding.of_match {w : Word} {op : BitVec 4} (h : MatchesRow op w) : RowDecoding op w := by
  have hop := fieldOp_of_match h
  have hdecode : decode w = decodeFields w := decode_eq_decodeFields (by rwa [hop])
  rw [decodeFields, hop] at hdecode
  have hword := eventWord_of_match h
  have hcases : ∀ op : BitVec 4,
      (op = 0x0 ∨ op = 0x2 ∨ op = 0x3 ∨ op = 0x4 ∨ op = 0x6 ∨ op = 0x7 ∨ op = 0xB ∨ op = 0xC ∨ op = 0xD) ∨
      HasSel op ∨ op = 0x5 ∨ op = 0xE ∨ HasSlot op := by decide
  rcases hcases op with hnone | (rfl | rfl) | rfl | rfl | rfl | rfl | rfl
  case inl =>
    rcases hnone with rfl | rfl | rfl | rfl | rfl | rfl | rfl | rfl | rfl <;>
      exact .of_noOperand h hdecode (by decide) (by decide)
  · exact .sel .arm (by decide) hdecode fun b hb => congrArg some (eventWordSel_of_match h (by decide) hb)
  · exact .sel .reloadSource (by decide) hdecode fun b hb => congrArg some (eventWordSel_of_match h (by decide) hb)
  · have hslot : fieldSlot w = 0 := extractLsb'_of_match h (by decide)
    have hoff : fieldOff w = 0 := extractLsb'_of_match h (by decide)
    rw [hslot, hoff] at hword
    exact .plain (.palRead (fieldLow w)) (by decide) (by decide) hdecode (congrArg some hword)
  · have hslot : fieldSlot w = 0 := extractLsb'_of_match h (by decide)
    have hoff : fieldOff w = 0 := extractLsb'_of_match h (by decide)
    rw [hslot, hoff, fieldLow_of_en (extractLsb'_of_match h (by decide))] at hword
    exact .plain (.setBuffering (fieldEn w)) (by decide) (by decide) hdecode (congrArg some hword)
  · have hoff : fieldOff w = 0 := extractLsb'_of_match h (by decide)
    rw [hoff] at hword
    exact .slot (.rebuildRow · (fieldLow w)) (by decide) hdecode (congrArg some hword)
  · have hoff : fieldOff w = 0 := extractLsb'_of_match h (by decide)
    have hlow : fieldLow w = 0 := extractLsb'_of_match h (by decide)
    rw [hoff, hlow] at hword
    exact .slot .rebuild (by decide) hdecode (congrArg some hword)
  · exact .slot (.fbWrite · (fieldOff w) (fieldLow w)) (by decide) hdecode (congrArg some hword)

/-- Settles O4. -/
theorem encodeOfDecodeIsIdentity : Obligations.EncodeOfDecodeIsIdentity := by
  intro w i hi
  by_cases hmatch : MatchesRow (fieldOp w) w
  · cases RowDecoding.of_match hmatch with
    | slot k _ hdecode hencode =>
      rw [hdecode, decodeSlot] at hi
      split at hi
      · cases hi
      · cases hi; exact hencode
    | sel k _ hdecode hencode =>
      rw [hdecode, decodeSel] at hi
      split at hi
      next b hb => cases hi; exact hencode b hb
      · cases hi
    | plain j _ _ hdecode hencode =>
      rw [hdecode] at hi
      cases hi
      exact hencode
  · rw [decode_eq_bits hmatch] at hi
    cases hi

/-! ### Words written out (O5), region codes and selectors (O8) -/

/-- Settles O5. -/
theorem specWordsDecode : Obligations.SpecWordsDecode := by
  unfold Obligations.SpecWordsDecode
  decide

theorem toNat_sel_prep (r : Byte) : (BufId.prep r).sel.toNat = r.toNat := by
  rw [BufId.sel, BitVec.toNat_append]; simp

theorem toNat_sel_tpl (k : BitVec 2) : (BufId.tpl k).sel.toNat = 256 + k.toNat := by
  revert k; decide

/-- Settles O8. -/
theorem selectorAndRegionCodes : Obligations.SelectorAndRegionCodes :=
  ⟨rfl, rfl, rfl, rfl, toNat_sel_prep, toNat_sel_tpl, bufOfSel_sel, fun _ => bufOfSel_eq_none⟩

/-! ### The step performs the decoded word (O9) and refuses a reserved one (O6; rule R83) -/

theorem step_of_event {s : State} {w : Word} {ts : List Turn} (hturn : s.schedule = .event w :: ts) :
    step s = passIfBlocked (popTurn s) (performEvent w (popTurn s)) := by
  rw [step, nextTurn, hturn]
  rfl

theorem performEvent_of_reserved {w : Word} {why : Reserved} (h : decode w = .error why) (s : State) :
    performEvent w s = .refused (.reservedWord why) := by
  rw [performEvent, h]

theorem performEvent_of_wf {w : Word} {i : Instr} {s : State} (h : decode w = .ok i) (hwf : i.wf s.cfg = true) :
    performEvent w s = exec i s := by
  rw [performEvent, h]
  exact if_pos hwf

theorem performEvent_of_not_wf {w : Word} {i : Instr} {s : State} (h : decode w = .ok i) (hwf : i.wf s.cfg = false) :
    performEvent w s = .refused (.reservedWord .slot) := by
  rw [performEvent, h]
  exact if_neg (Bool.eq_false_iff.mp hwf)

/-- Settles O9. -/
theorem stepPerformsDecodedEvent : Obligations.StepPerformsDecodedEvent := by
  intro s w ts i hturn hdecode hwf
  rw [← popTurn_eq hturn, step_of_event hturn, performEvent_of_wf (s := popTurn s) hdecode hwf]
  refine ⟨fun t h => ?_, fun f h => ?_, fun why h => ?_, fun r hr h => ?_⟩ <;> rw [h]
  · rfl
  · rfl
  · rfl
  · cases r with
    | notEnabled why => exact absurd rfl (hr why)
    | notModelled | reservedWord | dividerNotOne | oneSlotOnly | outOfDomain => rfl

theorem whenSlot_neg {s : State} {slot : BitVec 2} {k : Answer} (h : s.cfg.fbSlots ≤ slot.toNat) :
    whenSlot s slot k = .refused (.reservedWord .slot) := if_neg (Nat.not_lt.mpr h)

/-- A word that matches its row is reserved for slot 3 or a reserved selector, and for nothing else. -/
theorem decode_of_matchesRow {w : Word} (h : MatchesRow (fieldOp w) w) :
    (HasSlot (fieldOp w) → fieldSlot w = 3 → decode w = .error .slot) ∧
    (HasSel (fieldOp w) → bufOfSel (fieldSel w) = none → decode w = .error .selector) ∧
    (¬ (HasSlot (fieldOp w) ∧ fieldSlot w = 3) → ¬ (HasSel (fieldOp w) ∧ bufOfSel (fieldSel w) = none) →
      ∃ i, decode w = .ok i) := by
  have hapart : ∀ op, HasSlot op → ¬ HasSel op := by decide
  cases RowDecoding.of_match h with
  | slot k hop hdecode =>
    rw [hdecode, decodeSlot]
    exact ⟨fun _ h3 => if_pos h3, fun hsel => absurd hsel (hapart _ hop), fun h3 _ => ⟨_, if_neg fun h => h3 ⟨hop, h⟩⟩⟩
  | sel k hop hdecode =>
    rw [hdecode, decodeSel]
    refine ⟨fun hslot => absurd hop (hapart _ hslot), fun _ hnone => by rw [hnone], fun _ hsel => ?_⟩
    obtain ⟨b, hb⟩ := Option.ne_none_iff_exists'.mp fun h => hsel ⟨hop, h⟩
    exact ⟨k b, by rw [hb]⟩
  | plain i hslot hsel hdecode =>
    exact ⟨fun h => absurd h hslot, fun h => absurd h hsel, fun _ _ => ⟨i, hdecode⟩⟩

/-- The reserved selectors, by the word's bits (30_encoding.md rule R83(c)). -/
theorem bufOfSel_fieldSel_eq_none {w : Word} :
    bufOfSel (fieldSel w) = none ↔ w.extractLsb' 8 1 = 1 ∧ w.extractLsb' 2 6 ≠ 0 := by
  rw [bufOfSel_eq_none, fieldSel, BitVec.extractLsb'_extractLsb'_of_le (by decide),
    BitVec.extractLsb'_extractLsb'_of_le (by decide)]

/-- Settles O6. -/
theorem reservedWordsAreRefused : Obligations.ReservedWordsAreRefused := by
  intro w
  refine ⟨decode_eq_bits, fun h => ?_, fun s ts hturn => ?_, fun s slot row off val hslot => ?_⟩
  · obtain ⟨hslot, hsel, hok⟩ := decode_of_matchesRow h
    rw [bufOfSel_fieldSel_eq_none] at hsel hok
    exact ⟨hslot, fun hop h8 h7 => hsel hop ⟨h8, h7⟩, hok⟩
  · rw [step_of_event hturn]
    refine ⟨fun why hwhy => ?_, fun i hi hwf => ?_⟩
    · rw [performEvent_of_reserved hwhy]
      rfl
    · rw [performEvent_of_not_wf (s := popTurn s) hi hwf]
      rfl
  · exact ⟨whenSlot_neg hslot, whenSlot_neg hslot, whenSlot_neg hslot⟩

end Sys2Proof.Proofs

/-! SUPPORT. The scanline state machine (40_scanout.md): the regions of the frame and the buffer each is emitted from (O14, O15),
the cycle of scanlines (O16), STEP (O17), the pure functions (O18). -/

namespace Sys2Proof.Proofs

open Sys2Proof.Machine Sys2Proof.Laws

/-! ### The regions of the frame (40_scanout.md rules R100, R101) -/

/-- The four answers of the classifier, each with its range of scanlines. -/
theorem classify_cases (c : Config) (y : Nat) :
    (classify c y = .visible ∧ y < c.vVisible) ∨
    (classify c y = .frontPorch ∧ c.vVisible ≤ y ∧ y < c.vVisible + c.vFrontPorch) ∨
    (classify c y = .vsync ∧ c.vVisible + c.vFrontPorch ≤ y ∧ y < c.vVisible + c.vFrontPorch + c.vSyncPulse) ∨
    (classify c y = .backPorch ∧ c.vVisible + c.vFrontPorch + c.vSyncPulse ≤ y) := by
  unfold classify Config.endVisible Config.endFrontPorch Config.endVSync
  split_ifs with hA hB hC
  · exact .inl ⟨rfl, hA⟩
  · exact .inr (.inl ⟨rfl, Nat.not_lt.mp hA, hB⟩)
  · exact .inr (.inr (.inl ⟨rfl, Nat.not_lt.mp hB, hC⟩))
  · exact .inr (.inr (.inr ⟨rfl, Nat.not_lt.mp hC⟩))

/-- Settles O14: the four ranges exclude each other. -/
theorem regionsPartitionTheFrame : Obligations.RegionsPartitionTheFrame := by
  intro c y _ hy
  rcases classify_cases c y with ⟨h, hr⟩ | ⟨h, hr⟩ | ⟨h, hr⟩ | ⟨h, hr⟩ <;>
    simp only [h, reduceCtorEq, false_iff, true_iff] <;> omega

/-! ### The buffer of a scanline (40_scanout.md rule R102) -/

theorem select_of_visible {c : Config} {y : Nat} (h : classify c y = .visible) : select c y = .prep (BitVec.ofNat 8 y) := by
  rw [select, h]

theorem select_of_frontPorch {c : Config} {y : Nat} (h : classify c y = .frontPorch) : select c y = .blank := by
  rw [select, h]

theorem select_of_vsync {c : Config} {y : Nat} (h : classify c y = .vsync) : select c y = .vsync := by
  rw [select, h]

theorem select_of_backPorch {c : Config} {y : Nat} (h : classify c y = .backPorch) : select c y = .blank := by
  rw [select, h]

/-- Settles O15: a visible scanline is below 256, so the prepared line's number is the scanline's own. -/
theorem selectorFollowsRegion : Obligations.SelectorFollowsRegion := by
  intro c y hw hy
  refine ⟨fun h => ⟨_, select_of_visible h, ?_⟩, select_of_frontPorch, select_of_vsync, select_of_backPorch⟩
  obtain ⟨hvisible, -⟩ := regionsPartitionTheFrame c y hw hy
  rw [BitVec.toNat_ofNat]
  exact Nat.mod_eq_of_lt (Nat.lt_of_lt_of_le (hvisible.mp h) hw.visibleFits)

/-! ### The cycle of scanlines (40_scanout.md rule R103) -/

theorem nextY_eq_mod {c : Config} {y : Nat} (hy : y < c.wholeFrame) : nextY c y = (y + 1) % c.wholeFrame := by
  unfold nextY
  split
  next hlast => rw [hlast, Nat.mod_self]
  next hlast => exact (Nat.mod_eq_of_lt (by omega)).symm

/-- The successor of a scanline given modulo the frame's height. -/
theorem nextY_mod {c : Config} (hw : c.WellFormed) (n : Nat) : nextY c (n % c.wholeFrame) = (n + 1) % c.wholeFrame := by
  rw [nextY_eq_mod (Nat.mod_lt n hw.framePos), Nat.mod_add_mod]

/-- Settles O16, by induction on the number of successors taken. -/
theorem scanlinesFormOneCycle : Obligations.ScanlinesFormOneCycle := by
  intro c y hw hy
  refine ⟨nextY_eq_mod hy, nextY_lt hw hy, fun n => ?_⟩
  induction n with
  | zero => exact (Nat.mod_eq_of_lt hy).symm
  | succ n ih => rw [Function.iterate_succ_apply', ih, nextY_mod hw, Nat.add_assoc]

/-! ### STEP (40_scanout.md rules R104, R106) and the pure functions -/

theorem whenInDomain_neg {p : Prop} [Decidable p] {k : Answer} (h : ¬ p) : whenInDomain p k = .refused .outOfDomain := if_neg h

/-- STEP of a fault-free state with a pending interrupt: what is left of its precondition. -/
theorem execStep_of_pending {s : State} (hf : s.fault = none) (hirq : s.irqPending = true) :
    execStep s = if s.cfg.divider = 1 then whenInDomain (s.y < s.cfg.wholeFrame) (.next (handleLine s))
      else .refused .dividerNotOne := by
  rw [execStep, whenFaultFree_pos hf, whenEnabled_pos hirq]

/-- Settles O17. -/
theorem stepAdvancesAndPublishes : Obligations.StepAdvancesAndPublishes := by
  intro s
  refine ⟨fun hf hirq hdiv hy => ?_, fun hf => ?_, fun hf hirq => ?_, fun hf hirq hdiv => ?_, fun hf hirq hdiv hy => ?_⟩
  · exact execStep_next.mpr ⟨hf, hirq, hdiv, hy, rfl⟩
  · exact whenFaultFree_neg hf
  · exact (whenFaultFree_pos hf).trans (whenEnabled_neg (Bool.eq_false_iff.mp hirq))
  · exact (execStep_of_pending hf hirq).trans (if_neg hdiv)
  · exact (execStep_of_pending hf hirq).trans ((if_pos hdiv).trans (whenInDomain_neg (Nat.not_lt.mpr hy)))

/-- Settles O18: each function's meaning gives its value where its operand is in range. -/
theorem functionsReturnTheirValues : Obligations.FunctionsReturnTheirValues := by
  intro s
  refine ⟨fun y hy => ⟨?_, ?_, ?_⟩, fun n => ?_, fun b => ?_, fun k hk => ⟨?_, ?_⟩⟩
  · exact execClassify_next.mpr ⟨hy, rfl⟩
  · exact execSelect_next.mpr ⟨hy, rfl⟩
  · exact execNextY_next.mpr ⟨hy, rfl⟩
  · exact execLane_next.mpr rfl
  · exact execAddr_next.mpr rfl
  · exact execPlainLine_next.mpr ⟨hk, rfl⟩
  · exact execVsyncLine_next.mpr ⟨hk, rfl⟩

end Sys2Proof.Proofs

/-! SUPPORT. A line period, a TICK and n TICKs as runs of operations (42_dma_mux.md rules R138, R139, 40_scanout.md rules R104,
R108), and the steady state (O32). -/

namespace Sys2Proof.Proofs

open Sys2Proof.Machine Sys2Proof.Laws

/-! ### Operations one after the other -/

theorem execAll_cons {i : Instr} {s t : State} (h : exec i s = .next t) (is : List Instr) :
    execAll (i :: is) s = execAll is t := by
  rw [execAll, h]

theorem execAll_append {is : List Instr} {s t : State} (h : execAll is s = .next t) (js : List Instr) :
    execAll (is ++ js) s = execAll js t := by
  induction is generalizing s with
  | nil =>
    obtain rfl := next_eq.mp h
    rfl
  | cons i is ih =>
    cases hi : exec i s with
    | next u =>
      rw [execAll_cons hi] at h
      rw [List.cons_append, execAll_cons hi]
      exact ih h
    | fault f => simp [execAll, hi] at h
    | refused r => simp [execAll, hi] at h

/-! ### The words of a line buffer -/

theorem cfg_eq_of_config_eq {s t : State} (h : t.config = s.config) : t.cfg = s.cfg := congrArg WfConfig.toConfig h

theorem lineReady_congr {s t : State} (hc : t.config = s.config) (hl : t.line = s.line) {b : BufId} (h : LineReady s b) :
    LineReady t b := by
  unfold LineReady bufSample
  rw [cfg_eq_of_config_eq hc]
  exact fun k hk => lineByte_congr hc hl _ ▸ h k hk

theorem lineReady_of_addr_eq {s : State} {b d : BufId} (ha : addr s.cfg b = addr s.cfg d) (h : LineReady s d) :
    LineReady s b := by
  unfold LineReady bufSample
  rw [ha]
  exact h

/-- Every word of a written line buffer can be read. -/
theorem bufWord_isSome {s : State} {b : BufId} (h : LineReady s b) {w : Nat} (hw : w < s.cfg.lineWords) :
    (bufWord s b w).isSome = true := by
  have hbyte : ∀ j, j < 4 → (lineByte s ((addr s.cfg b).toNat + 4 * w + j)).isSome = true := fun j hj => by
    rw [Nat.add_assoc]
    exact h _ (by unfold Config.lineBytes; omega)
  exact lineWord_isSome.mpr ⟨hbyte 0 (by omega), hbyte 1 (by omega), hbyte 2 (by omega), hbyte 3 (by omega)⟩

/-- The words of line buffer b in order (20_memory.md rule R43); a word with an unwritten byte counts as 0. -/
def bufWords (s : State) (b : BufId) : List Word := (List.range s.cfg.lineWords).map fun w => (bufWord s b w).getD 0

@[simp] theorem bufWords_length (s : State) (b : BufId) : (bufWords s b).length = s.cfg.lineWords := by simp [bufWords]

theorem bufWords_getElem? {s : State} {b : BufId} (h : LineReady s b) {w : Nat} (hw : w < s.cfg.lineWords) :
    (bufWords s b)[w]? = bufWord s b w := by
  obtain ⟨v, hv⟩ := Option.isSome_iff_exists.mp (bufWord_isSome h hw)
  simp [bufWords, hw, hv]

theorem bufWords_congr {s t : State} (hc : t.config = s.config) (hl : t.line = s.line) (b : BufId) :
    bufWords t b = bufWords s b := by
  unfold bufWords bufWord
  simp only [lineWord_congr (lineByte_congr hc hl), cfg_eq_of_config_eq hc]

/-! ### A line period (42_dma_mux.md rules R138, R139) -/

/-- The chain is at the first word of line buffer b, which has been written. -/
structure AtLineStart (s : State) (b : BufId) : Prop where
  fault : s.fault = none
  armed : s.dmaArmed = true
  cnt : s.dmaCnt = 0
  base : s.dmaBase = addr s.cfg b
  ready : LineReady s b

/-- The state after the first m words of buffer b. -/
def afterWords (b : BufId) (m : Nat) (s : State) : State :=
  { s with outStream := s.outStream ++ (bufWords s b).take m, dmaCnt := m }

/-- The state after a line period of buffer b: its words put out, the published pointer loaded, the interrupt raised. -/
def afterLine (b : BufId) (s : State) : State :=
  { s with outStream := s.outStream ++ bufWords s b, dmaBase := s.srcPtr, dmaCnt := 0, irqPending := true }

theorem exec_stream_afterWords {s : State} {b : BufId} (h : AtLineStart s b) {m : Nat} (hm : m < s.cfg.lineWords) :
    exec .stream (afterWords b m s) = .next (afterWords b (m + 1) s) := by
  obtain ⟨w, hw⟩ := Option.isSome_iff_exists.mp (bufWord_isSome h.ready hm)
  have haddr : streamAddr (afterWords b m s) = (addr s.cfg b).toNat + 4 * m :=
    congrArg (fun p : Word => p.toNat + 4 * m) h.base
  refine execStream_next.mpr ⟨h.fault, h.armed, hm, ?_, .inl ⟨w, ?_, ?_⟩⟩
  · rw [haddr]
    exact wordMapped_of_inBuf s.config.ok hm
  · rw [haddr]
    exact hw
  · unfold afterWords emitWord
    rw [List.take_add_one, bufWords_getElem? h.ready hm, hw, Option.toList_some, List.append_assoc]

theorem execAll_stream {s : State} {b : BufId} (h : AtLineStart s b) {m : Nat} (hm : m ≤ s.cfg.lineWords) :
    execAll (List.replicate m .stream) s = .next (afterWords b m s) := by
  induction m with
  | zero =>
    have hstart : afterWords b 0 s = s := by
      unfold afterWords
      rw [List.take_zero, List.append_nil, ← h.cnt]
    rw [hstart]
    rfl
  | succ m ih =>
    rw [List.replicate_succ', execAll_append (ih (by omega)), execAll_cons (exec_stream_afterWords h hm)]
    rfl

/-- A line period puts out the buffer's words in order, loads the published pointer and raises the interrupt. -/
theorem execAll_pseudoLine {s : State} {b : BufId} (h : AtLineStart s b) :
    execAll (pseudoLine s.cfg) s = .next (afterLine b s) := by
  have hend : exec .lineEnd (afterWords b s.cfg.lineWords s) = .next (afterLine b s) := by
    refine execLineEnd_next.mpr ⟨h.fault, h.armed, rfl, ?_⟩
    unfold afterWords afterLine
    rw [List.take_of_length_le (bufWords_length s b).le]
    rfl
  rw [pseudoLine, execAll_append (execAll_stream h (Nat.le_refl _)), execAll_cons hend]
  rfl

/-- A TICK is a line period and the STEP it causes (40_scanout.md rule R104). -/
theorem execAll_pseudoTick {s : State} {b : BufId} (h : AtLineStart s b) (hdiv : s.cfg.divider = 1)
    (hy : s.y < s.cfg.wholeFrame) : execAll (pseudoTick s.cfg) s = .next (handleLine (afterLine b s)) := by
  have hstep : exec .step (afterLine b s) = .next (handleLine (afterLine b s)) :=
    execStep_next.mpr ⟨h.fault, rfl, hdiv, hy, rfl⟩
  rw [pseudoTick, execAll_append (execAll_pseudoLine h), execAll_cons hstep]
  rfl

/-! ### Line periods of the output history -/

/-- A full line period stays when words are appended. -/
theorem linePeriod_of_append {s t : State} {ws : List Word} {n k : Nat} (hc : t.config = s.config)
    (hout : t.outStream = s.outStream ++ ws) (hlen : s.outStream.length = n * s.cfg.lineWords) (hk : k < n) :
    linePeriod t k = linePeriod s k := by
  have hfull : (k + 1) * s.cfg.lineWords ≤ s.outStream.length := hlen ▸ Nat.mul_le_mul_right _ hk
  rw [Nat.succ_mul] at hfull
  unfold linePeriod
  rw [cfg_eq_of_config_eq hc, hout, List.drop_append_of_le_length (by omega), List.take_append_of_le_length]
  rw [List.length_drop]
  omega

/-- The line's words appended to n full line periods are line period n. -/
theorem linePeriod_last {s t : State} {ws : List Word} {n : Nat} (hc : t.config = s.config)
    (hout : t.outStream = s.outStream ++ ws) (hlen : s.outStream.length = n * s.cfg.lineWords)
    (hws : ws.length = s.cfg.lineWords) : linePeriod t n = ws := by
  unfold linePeriod
  rw [cfg_eq_of_config_eq hc, hout, List.drop_left' hlen, List.take_of_length_le hws.le]

/-! ### The steady state (40_scanout.md rule R108) -/

/-- After the boot obligations every scanline's buffer has been written. -/
theorem lineReady_select {s : State} (h : BootReady s) {y : Nat} (hy : y < s.cfg.wholeFrame) :
    LineReady s (select s.cfg y) := by
  obtain ⟨-, htemplates, hprepared⟩ := h
  have hw := s.config.ok
  have htpl : ∀ k, LineReady s (.tpl k) := fun k j hj => by
    rw [htemplates k j (lineBytes_eq hw ▸ hj)]
    rfl
  obtain ⟨hvisible, hfront, hvsync, hback⟩ := selectorFollowsRegion s.cfg y hw hy
  cases hregion : classify s.cfg y with
  | visible =>
    obtain ⟨r, hselect, hr⟩ := hvisible hregion
    obtain ⟨hrange, -⟩ := regionsPartitionTheFrame s.cfg y hw hy
    rw [hselect]
    exact hprepared r (hr ▸ hrange.mp hregion)
  | frontPorch => exact hfront hregion ▸ htpl 0
  | vsync => exact hvsync hregion ▸ htpl 1
  | backPorch => exact hback hregion ▸ htpl 0

/-- The buffer of line period k from a chain armed at b: b first, then the scanlines' buffers, one period late (rule R108). -/
def periodBuf (c : Config) (b : BufId) (k : Nat) : BufId := if k = 0 then b else select c ((k - 1) % c.wholeFrame)

/-- What n TICKs from state s, armed at b, have made of it: n line periods put out, the chain at the start of the next. -/
structure AfterTicks (s : State) (b : BufId) (n : Nat) (t : State) : Prop where
  config : t.config = s.config
  line : t.line = s.line
  start : AtLineStart t (periodBuf s.cfg b n)
  y : t.y = n % s.cfg.wholeFrame
  srcPtr : t.srcPtr = addr s.cfg (select s.cfg (n % s.cfg.wholeFrame))
  history : t.outStream.length = n * s.cfg.lineWords
  periods : ∀ k, k < n → linePeriod t k = bufWords s (periodBuf s.cfg b k)

/-- Every line period streams a written buffer. -/
theorem lineReady_periodBuf {s : State} {b : BufId} (hboot : BootReady s) (hb : LineReady s b) (k : Nat) :
    LineReady s (periodBuf s.cfg b k) := by
  unfold periodBuf
  split
  · exact hb
  · exact lineReady_select hboot (Nat.mod_lt _ s.config.ok.framePos)

/-- One more TICK. -/
theorem AfterTicks.succ {s t : State} {b : BufId} {n : Nat} (h : AfterTicks s b n t) (hboot : BootReady s)
    (hb : LineReady s b) : AfterTicks s b (n + 1) (handleLine (afterLine (periodBuf s.cfg b n) t)) := by
  have hcfg : t.cfg = s.cfg := cfg_eq_of_config_eq h.config
  have hnext : nextY t.cfg t.y = (n + 1) % s.cfg.wholeFrame := by rw [hcfg, h.y, nextY_mod s.config.ok]
  have hlen : t.outStream.length = n * t.cfg.lineWords := hcfg ▸ h.history
  exact
    { config := h.config
      line := h.line
      start :=
        { fault := h.start.fault
          armed := h.start.armed
          cnt := rfl
          base := h.srcPtr.trans (hcfg ▸ rfl)
          ready := lineReady_congr h.config h.line (lineReady_periodBuf hboot hb (n + 1)) }
      y := hnext
      srcPtr := congrArg₂ (fun c v => addr c (select c v)) hcfg hnext
      history := by
        rw [handleLine_outStream, afterLine, List.length_append, bufWords_length, h.history, hcfg, Nat.succ_mul]
      periods := fun k hk => by
        rcases Nat.lt_succ_iff_lt_or_eq.mp hk with hk | rfl
        · rw [← h.periods k hk]
          exact linePeriod_of_append (s := t) rfl rfl hlen hk
        · rw [← bufWords_congr h.config h.line]
          exact linePeriod_last (s := t) rfl rfl hlen (bufWords_length t _) }

theorem execAll_ticks {s : State} {b : BufId} (h : AfterTicks s b 0 s) (hboot : BootReady s) (hdiv : s.cfg.divider = 1)
    (n : Nat) : ∃ t, execAll (List.replicate n (pseudoTick s.cfg)).flatten s = .next t ∧ AfterTicks s b n t := by
  induction n with
  | zero => exact ⟨s, rfl, h⟩
  | succ n ih =>
    obtain ⟨t, hrun, ht⟩ := ih
    have hcfg : t.cfg = s.cfg := cfg_eq_of_config_eq ht.config
    have hy : t.y < t.cfg.wholeFrame := by
      rw [hcfg, ht.y]
      exact Nat.mod_lt n s.config.ok.framePos
    have htick := execAll_pseudoTick ht.start (hcfg ▸ hdiv) hy
    rw [hcfg] at htick
    refine ⟨_, ?_, ht.succ hboot h.start.ready⟩
    rw [List.replicate_succ', List.flatten_append, List.flatten_singleton, execAll_append hrun, htick]

/-- Settles O32, by induction on the number of TICKs. -/
theorem steadyStateStreamsTheFrame : Obligations.SteadyStateStreamsTheFrame := by
  intro s b n ⟨_, hboot, _, hbase⟩ hptr hf hdiv harmed hb hcnt hy hout
  obtain ⟨d, hd, hready⟩ := hbase harmed
  have hstart : AtLineStart s b := ⟨hf, harmed, hcnt, hb, lineReady_of_addr_eq (hb.symm.trans hd) hready⟩
  have hzero : AfterTicks s b 0 s :=
    { config := rfl
      line := rfl
      start := hstart
      y := by rw [hy, Nat.zero_mod]
      srcPtr := by rw [Nat.zero_mod, ← hy]; exact hptr
      history := by rw [hout, Nat.zero_mul, List.length_nil]
      periods := fun _ hk => absurd hk (Nat.not_lt_zero _) }
  obtain ⟨t, hrun, ht⟩ := execAll_ticks hzero hboot hdiv n
  refine ⟨t, hrun, ht.y, ht.srcPtr, ht.history, fun k w hk hw => ?_⟩
  rw [ht.periods k hk]
  exact bufWords_getElem? (lineReady_periodBuf hboot hstart.ready k) hw

end Sys2Proof.Proofs

/-! SUPPORT. The palette (41_palette.md): what PAL_BUILD leaves in the table (O21), the fields of its entries (O20), reading it
(O22), and that it and the templates are constant over a run (O23). -/

namespace Sys2Proof.Proofs

open Sys2Proof.Machine Sys2Proof.Laws

/-! ### The fields of a sample (30_encoding.md rule R73) -/

/-- A byte with no bit in one of two masks that cover it lies inside the other. -/
theorem and_eq_self_of_covered {x m m' : Byte} (hcover : m ||| m' = 0xFF) (hx : x &&& m' = 0) : x &&& m = x := by
  calc x &&& m = x &&& (m ||| m') := by rw [BitVec.and_or_distrib_left, hx]; exact BitVec.or_zero.symm
    _ = x := by rw [hcover]; exact BitVec.and_allOnes

theorem xor_and_eq_zero {x y m : Byte} (hx : x &&& m = 0) (hy : y &&& m = 0) : (x ^^^ y) &&& m = 0 := by
  calc (x ^^^ y) &&& m = (x &&& m) ^^^ (y &&& m) := by ext i; simp [Bool.and_xor_distrib_right]
    _ = 0 := by rw [hx, hy]; exact BitVec.xor_self

/-- The idle pattern has no colour bit. -/
theorem idle_and_colorMask {c : Config} (hw : c.WellFormed) : idle c &&& c.colorMask = 0 :=
  xor_and_eq_zero (hw.patternsSync c.noSync List.mem_cons_self) hw.polaritySync

/-- An expanded intensity has no sync bit. -/
theorem rgbiExpand_and_syncMask {c : Config} (hw : c.WellFormed) (n : BitVec 4) : c.rgbiExpand[n.toNat] &&& c.syncMask = 0 :=
  hw.expandColor n.toFin

/-- The colour field of a lane is the expansion of its nibble. -/
theorem lane_and_colorMask {c : Config} (hw : c.WellFormed) (n : BitVec 4) : lane c n &&& c.colorMask = c.rgbiExpand[n.toNat] := by
  have hcolor : c.rgbiExpand[n.toNat] &&& c.colorMask = c.rgbiExpand[n.toNat] :=
    and_eq_self_of_covered ((BitVec.or_comm _ _).trans hw.masksCover) (rgbiExpand_and_syncMask hw n)
  rw [lane, BitVec.and_or_distrib_right, idle_and_colorMask hw, hcolor]
  exact BitVec.zero_or

/-- The sync field of a lane is the idle pattern. -/
theorem lane_and_syncMask {c : Config} (hw : c.WellFormed) (n : BitVec 4) : lane c n &&& c.syncMask = idle c := by
  have hsync : idle c &&& c.syncMask = idle c := and_eq_self_of_covered hw.masksCover (idle_and_colorMask hw)
  rw [lane, BitVec.and_or_distrib_right, hsync, rgbiExpand_and_syncMask hw n]
  exact BitVec.or_zero

/-! ### The lanes of a constructed entry (41_palette.md rule R123) -/

@[simp] theorem lane1_palWord (c : Config) (b : Byte) : lane1 (palWord c b) = lane c (rightPixel b) :=
  BitVec.extractLsb'_append_eq_left

@[simp] theorem lane0_palWord (c : Config) (b : Byte) : lane0 (palWord c b) = lane c (leftPixel b) :=
  BitVec.extractLsb'_append_eq_right

/-- Settles O21: PAL_BUILD's one store is to the palette and leaves the constructed content there. -/
theorem palBuildWritesTheTable : Obligations.PalBuildWritesTheTable := fun s hf =>
  ⟨storePal (palContent s.cfg) s, execPalBuild_next.mpr ⟨hf, rfl⟩, rfl, paletteBuilt_storePal_palContent s⟩

theorem paletteBuilt_of_palBuild {s t : State} (h : exec .palBuild s = .next t) : PaletteBuilt t := by
  obtain ⟨-, rfl⟩ := execPalBuild_next.mp h
  exact paletteBuilt_storePal_palContent s

/-- Settles O20: each lane of a constructed entry falls apart into the expansion of its nibble and the idle pattern. -/
theorem paletteRoundTrip : Obligations.PaletteRoundTrip := by
  intro s t h b
  have hw : t.cfg.WellFormed := t.config.ok
  have hright : (palWord t.cfg b).extractLsb' 8 8 = lane t.cfg (rightPixel b) := lane1_palWord t.cfg b
  have hleft : (palWord t.cfg b).extractLsb' 0 8 = lane t.cfg (leftPixel b) := lane0_palWord t.cfg b
  rw [paletteBuilt_of_palBuild h b, hright, hleft]
  exact ⟨lane_and_colorMask hw _, lane_and_colorMask hw _, lane_and_syncMask hw _, lane_and_syncMask hw _⟩

/-- Settles O22: PAL_READ needs only that no fault is set, and its one update is the model's result. -/
theorem palReadReturnsTheEntry : Obligations.PalReadReturnsTheEntry := fun _ _ hf =>
  execPalRead_next.mpr ⟨hf, rfl⟩

/-! ### The writer of the palette (41_palette.md rule R127) -/

@[simp] theorem rebuildRows_pal (slot : BitVec 2) (rows : List Byte) (s : State) :
    (rebuildRows slot rows s).pal = s.pal := by rw [rebuildRows_frame]

@[simp] theorem rebuildAccess_pal (slot : BitVec 2) (row : Byte) (m : Nat) (s : State) :
    (rebuildAccess slot row m s).pal = s.pal := by rw [rebuildAccess_frame]

theorem BackgroundEffect.pal_kept {s t : State} {i : Instr} (h : BackgroundEffect s i t) (hbuild : i ≠ .palBuild) :
    t.pal = s.pal := by
  cases h with
  | palBuild => exact absurd rfl hbuild
  | rebuildRow => exact rebuildRest_pal _ _ _ s
  | rebuild => exact rebuildRows_pal _ _ s
  | acqWrite => exact (memoryKept_acquireForWrite s).pal
  | acqDisplay => exact (memoryKept_acquireForDisplay s).pal
  | tplBuild | fbWrite | clearBuffers | setBuffering | returns => rfl

/-- Only PAL_BUILD and RESET write the palette. -/
theorem exec_pal_kept {i : Instr} {s t : State} (h : exec i s = .next t) (hbuild : i ≠ .palBuild) (hreset : i ≠ .reset) :
    t.pal = s.pal := by
  rcases (exec_effect h).memoryKept_or_background hreset with hkept | hb
  · exact hkept.pal
  · exact hb.pal_kept hbuild

/-- PAL_BUILD and RESET leave the constructed palette whatever was there; the other operations do not write it. -/
theorem exec_keeps_paletteBuilt {i : Instr} {s t : State} (h : exec i s = .next t) (hs : PaletteBuilt s) : PaletteBuilt t := by
  by_cases hbuild : i = .palBuild
  · subst hbuild
    exact paletteBuilt_of_palBuild h
  · by_cases hreset : i = .reset
    · subst hreset
      obtain rfl := execReset_next.mp h
      exact (isReset_resetBlock s).palette
    · exact paletteBuilt_congr (exec_config h) (exec_pal_kept h hbuild hreset) hs

/-! ### The templates (43_line_buffers.md rule R163) -/

/-- TPL_BUILD writes each template with its constructed content; a rebuild writes prepared lines only. -/
theorem BackgroundEffect.templatesBuilt {s t : State} {i : Instr} (h : BackgroundEffect s i t) (hs : TemplatesBuilt s) :
    TemplatesBuilt t := by
  cases h with
  | tplBuild =>
    exact templatesBuilt_buildTpl 3 (templatesBuilt_buildTpl 2 (templatesBuilt_buildTpl 1 (templatesBuilt_buildTpl 0 hs)))
  | rebuildRow =>
    exact templatesBuilt_of_outside (rebuildRest_config ..) (fun _ hout => lineByte_rebuildRest_outside (hout _)) hs
  | rebuild =>
    exact templatesBuilt_of_outside (rebuildRows_config ..)
      (fun _ hout => lineByte_rebuildRows_outside fun row _ => hout row) hs
  | acqWrite => exact templatesBuilt_congr (acquireForWrite_config s) (memoryKept_acquireForWrite s).line hs
  | acqDisplay => exact templatesBuilt_congr (acquireForDisplay_config s) (memoryKept_acquireForDisplay s).line hs
  | palBuild | fbWrite | clearBuffers | setBuffering | returns => exact hs

theorem exec_keeps_templatesBuilt {i : Instr} {s t : State} (h : exec i s = .next t) (hs : TemplatesBuilt s) :
    TemplatesBuilt t := by
  cases exec_effect h with
  | reset => exact (isReset_resetBlock s).templates
  | background hb => exact hb.templatesBuilt hs
  | arm | emit | unwritten | lineEnd | step | reloadSource => exact hs

theorem rebuildMicro_pal_kept {slot : BitVec 2} {row : Byte} {s t : State} (h : rebuildMicro slot row s = .next t) :
    t.pal = s.pal := by
  obtain ⟨-, -, m, -, rfl⟩ := rebuildMicro_next.mp h
  exact rebuildAccess_pal slot row m s

/-- Settles O23, from the writers of the palette and of the templates; a micro-step keeps the invariant, which holds the
templates' content. -/
theorem romContentIsConstant : Obligations.RomContentIsConstant := by
  refine ⟨fun i s t h => ⟨fun hbuild hreset => ?_, exec_keeps_paletteBuilt h, exec_keeps_templatesBuilt h⟩,
    fun slot row s t hs h => ⟨?_, (rebuildMicro_inv hs h).templates⟩⟩
  · exact palEntry_congr (exec_config h) (exec_pal_kept h hbuild hreset)
  · exact palEntry_congr (rebuildMicro_config h) (rebuildMicro_pal_kept h)

end Sys2Proof.Proofs

/-! SUPPORT. The multiplexer and the transfer chain (42_dma_mux.md): what STREAM reads (O25, O27), the operations one at a time
(O24, O28, O29), a line period (O30) and a missed deadline (O31). -/

namespace Sys2Proof.Proofs

open Sys2Proof.Machine Sys2Proof.Laws

/-! ### What a word of LINE can hold -/

/-- Where an unlisted address reads as a value, every list of cells gives one. -/
theorem memRead_isSome_of_init {α : Type} {init : Nat → Option α} {a : Nat} (h : (init a).isSome = true) (m : List (Nat × α)) :
    (memRead init m a).isSome = true := by
  unfold memRead
  split
  · rfl
  · exact h

/-- Settles O27: a byte of a template that the memory does not list reads as the constructed content. -/
theorem templatesAlwaysHoldValues : Obligations.TemplatesAlwaysHoldValues := by
  intro s t k hk
  refine memRead_isSome_of_init ?_ s.line
  rw [lineInitial_tpl s.config.ok hk]
  rfl

/-- A word with an unwritten byte cannot be read. -/
theorem lineWord_eq_none {s : State} {a j : Nat} (hj : j < 4) (h : lineByte s (a + j) = none) : lineWord s a = none := by
  refine Option.not_isSome_iff_eq_none.mp fun hword => ?_
  obtain ⟨h0, h1, h2, h3⟩ := lineWord_isSome.mp hword
  have hbyte : (lineByte s (a + j)).isSome = true := by
    interval_cases j
    exacts [h0, h1, h2, h3]
  rw [h] at hbyte
  cases hbyte

/-! ### The operations of the chain (42_dma_mux.md rules R136 to R139) -/

/-- An operation has no step if, whenever its first precondition holds, the rest has none. -/
theorem whenEnabled_notEnabled {p : Prop} [Decidable p] {why : Blocked} {k : Answer}
    (h : p → ∃ why', k = .refused (.notEnabled why')) : ∃ why', whenEnabled p why k = .refused (.notEnabled why') := by
  by_cases hp : p
  · rw [whenEnabled_pos hp]
    exact h hp
  · exact ⟨why, whenEnabled_neg hp⟩

/-- Settles O29. -/
theorem reloadSourcePublishes : Obligations.ReloadSourcePublishes := fun _ _ hf => execReloadSource_next.mpr ⟨hf, rfl⟩

/-- Settles O24. -/
theorem armLoadsTheChain : Obligations.ArmLoadsTheChain := fun _ _ hf =>
  ⟨fun hunarmed => execArm_next.mpr ⟨hf, hunarmed, rfl⟩,
    fun harmed => (whenFaultFree_pos hf).trans (whenEnabled_neg (ne_false_of_eq_true harmed))⟩

/-- Settles O28. -/
theorem lineEndReloadsAndInterrupts : Obligations.LineEndReloadsAndInterrupts := by
  refine fun s => ⟨fun hf harmed hcnt => execLineEnd_next.mpr ⟨hf, harmed, hcnt, rfl⟩, fun h => ?_⟩
  refine whenEnabled_notEnabled fun hf => whenEnabled_notEnabled fun harmed => ⟨.lineIncomplete, whenEnabled_neg ?_⟩
  exact (h.resolve_left (not_not_intro hf)).resolve_left (ne_false_of_eq_true harmed)

/-- Settles O25: a word of the buffer at dma_base is a word of LINE, so STREAM puts it out or records the fault. -/
theorem streamPutsOutTheWord : Obligations.StreamPutsOutTheWord := by
  intro s b hbase
  refine ⟨fun hf harmed hcnt => ?_, fun h => ?_⟩
  · have hmapped : wordMapped s.cfg (streamAddr s) = true := by
      rw [streamAddr, hbase harmed]
      exact wordMapped_of_inBuf s.config.ok hcnt
    refine ⟨fun b0 b1 b2 b3 h0 h1 h2 h3 => ?_, fun ⟨j, hj, hnone⟩ => ?_⟩
    · have hword : lineWord s (streamAddr s) = some (scanWord b0 b1 b2 b3) :=
        lineWord_eq_some.mpr ⟨b0, b1, b2, b3, h0, h1, h2, h3, rfl⟩
      exact execStream_next.mpr ⟨hf, harmed, hcnt, hmapped, .inl ⟨_, hword, rfl⟩⟩
    · exact execStream_next.mpr ⟨hf, harmed, hcnt, hmapped, .inr ⟨lineWord_eq_none hj hnone, rfl⟩⟩
  · refine whenEnabled_notEnabled fun hf => whenEnabled_notEnabled fun harmed => ⟨.lineComplete, whenEnabled_neg ?_⟩
    exact Nat.not_lt.mpr <| (h.resolve_left (not_not_intro hf)).resolve_left (ne_false_of_eq_true harmed)

/-! ### A line period and a missed deadline -/

/-- Settles O30: the words are those of the buffer, by the induction over the line of `execAll_stream`. -/
theorem linePeriodStreamsTheBuffer : Obligations.LinePeriodStreamsTheBuffer := fun s b hf harmed hcnt hbase hready =>
  ⟨bufWords s b, bufWords_length s b, fun _ hk => (bufWords_getElem? hready hk).symm,
    execAll_pseudoLine ⟨hf, harmed, hcnt, hbase, hready⟩⟩

/-- The state after LINE_END: the chain at the published pointer, the interrupt raised. -/
def afterLineEnd (s : State) : State := raiseIrq (loadChain s.srcPtr s)

/-- After LINE_END the chain is at the start of the published line. -/
theorem atLineStart_afterLineEnd {s : State} {d : BufId} (hf : s.fault = none) (harmed : s.dmaArmed = true)
    (hsrc : s.srcPtr = addr s.cfg d) (hready : LineReady s d) : AtLineStart (afterLineEnd s) d where
  fault := hf
  armed := harmed
  cnt := rfl
  base := hsrc
  ready := lineReady_congr (s := s) rfl rfl hready

/-- After a line period the chain is at the start of the published line. -/
theorem atLineStart_afterLine {s : State} {b d : BufId} (h : AtLineStart s b) (hsrc : s.srcPtr = addr s.cfg d)
    (hready : LineReady s d) : AtLineStart (afterLine b s) d :=
  atLineStart_afterLineEnd (s := { s with outStream := s.outStream ++ bufWords s b }) h.fault h.armed hsrc hready

/-- The state at the end of the line after which LINE_END came twice with no STEP between: the published line b put out twice. -/
def afterRepeatedLine (b : BufId) (s : State) : State := afterLine b (afterLine b (afterLineEnd s))

/-- No operation of a line period publishes: the second line streams the words of the first. -/
theorem afterRepeatedLine_eq (b : BufId) (s : State) :
    afterRepeatedLine b s = { s with
      outStream := s.outStream ++ bufWords s b ++ bufWords s b, dmaBase := s.srcPtr, dmaCnt := 0, irqPending := true } := rfl

/-- From the end of a line, LINE_END and two line periods stream the published line twice. -/
theorem execAll_repeatedLine {s : State} {b : BufId} (hf : s.fault = none) (harmed : s.dmaArmed = true)
    (hcnt : s.dmaCnt = s.cfg.lineWords) (hsrc : s.srcPtr = addr s.cfg b) (hready : LineReady s b) :
    execAll (.lineEnd :: (pseudoLine s.cfg ++ pseudoLine s.cfg)) s = .next (afterRepeatedLine b s) := by
  have hend : exec .lineEnd s = .next (afterLineEnd s) := execLineEnd_next.mpr ⟨hf, harmed, hcnt, rfl⟩
  have hfirst : AtLineStart (afterLineEnd s) b := atLineStart_afterLineEnd hf harmed hsrc hready
  have hsecond : AtLineStart (afterLine b (afterLineEnd s)) b := atLineStart_afterLine hfirst hsrc hfirst.ready
  rw [execAll_cons hend]
  exact (execAll_append (execAll_pseudoLine hfirst) _).trans (execAll_pseudoLine hsecond)

/-- Settles O31: the late STEP finds the interrupt pending and the scanline where it was. -/
theorem missedDeadlineRepeatsTheLine : Obligations.MissedDeadlineRepeatsTheLine := by
  intro s b hf harmed hcnt hsrc hready hdiv hy
  have hrun := execAll_repeatedLine hf harmed hcnt hsrc hready
  have hstep : exec .step (afterRepeatedLine b s) = .next (handleLine (afterRepeatedLine b s)) :=
    execStep_next.mpr ⟨hf, rfl, hdiv, hy, rfl⟩
  refine ⟨bufWords s b, bufWords_length s b, fun _ hk => (bufWords_getElem? hready hk).symm, ?_, ?_⟩
  · rw [hrun, afterRepeatedLine_eq]
  · rw [← List.cons_append, execAll_append hrun, execAll_cons hstep, afterRepeatedLine_eq]
    rfl

end Sys2Proof.Proofs

/-! SUPPORT. REBUILD_ROW as its micro-steps (43_line_buffers.md rules R165, R166): what one access does (O40), how the rest of a
rebuild goes on from it, and that the micro-steps taken one step of the machine at a time make the whole (O39). -/

namespace Sys2Proof.Proofs

open Sys2Proof.Machine Sys2Proof.Laws

section

variable {slot : BitVec 2} {row : Byte} {m : Nat} {s : State}

/-! ### The three kinds of micro-step -/

theorem rebuildAccess_of_stamp (hm : m < s.cfg.lineSamples) :
    rebuildAccess slot row m s =
      setRb (rebuildMark s.cfg slot row (m + 1)) (storeLine (prepSample s.cfg row m) [plainLine s.cfg m] s) := if_pos hm

theorem rebuildAccess_of_written {col : Nat} {b : Byte} (hb : fbByte s slot (fbOffset row col) = some b) :
    rebuildAccess slot row (s.cfg.lineSamples + col) s =
      setRb (rebuildMark s.cfg slot row (s.cfg.lineSamples + col + 1))
        (storeLine (prepSample s.cfg row (s.cfg.activeStart + 2 * col)) (palBytes (palEntry s b)) s) := by
  simp [rebuildAccess, hb]

theorem rebuildAccess_of_unwritten {col : Nat} (hb : fbByte s slot (fbOffset row col) = none) :
    rebuildAccess slot row (s.cfg.lineSamples + col) s =
      raiseFault (.uninitFb slot row col) (setRb (some ⟨slot, row, s.cfg.lineSamples + col⟩) s) := by
  simp [rebuildAccess, hb]

/-- A micro-step stamps a sample or stores a column. -/
theorem stamp_or_column (hm : m < rebuildSteps s.cfg) :
    m < s.cfg.lineSamples ∨ ∃ col, col < fbStride ∧ m = s.cfg.lineSamples + col := by
  rcases Nat.lt_or_ge m s.cfg.lineSamples with h | h
  · exact .inl h
  · obtain ⟨col, rfl⟩ := Nat.exists_eq_add_of_le h
    exact .inr ⟨col, Nat.lt_of_add_lt_add_left hm, rfl⟩

/-- A rebuild that is idle or at micro-step m goes on at m. -/
theorem rebuildFrom_eq (h : s.rb = none ∧ m = 0 ∨ s.rb = some ⟨slot, row, m⟩) : rebuildFrom s slot row = some m := by
  rcases h with ⟨hrb, rfl⟩ | hrb <;> simp [rebuildFrom, hrb]

theorem rebuildMark_of_lt {c : Config} (hm : m < rebuildSteps c) : rebuildMark c slot row m = some ⟨slot, row, m⟩ := if_pos hm

theorem rebuildMark_rebuildSteps (c : Config) : rebuildMark c slot row (rebuildSteps c) = none := if_neg (Nat.lt_irrefl _)

/-- After the store of column 127 no micro-step is left. -/
theorem rebuildMark_after_column {c : Config} {col : Nat} (hcol : col < fbStride) :
    rebuildMark c slot row (c.lineSamples + col + 1) =
      if col = 127 then none else some ⟨slot, row, c.lineSamples + col + 1⟩ := by
  unfold fbStride at hcol
  by_cases h : col = 127
  · subst h
    rw [if_pos rfl]
    exact rebuildMark_rebuildSteps c
  · rw [if_neg h]
    exact rebuildMark_of_lt (by unfold rebuildSteps fbStride; omega)

theorem lineByte_storeLine_one (a : Nat) (v : Byte) (x : Nat) :
    lineByte (storeLine a [v] s) x = if x = a then some v else lineByte s x := by
  have hin : (a ≤ x ∧ x < a + [v].length) ↔ x = a := by rw [List.length_singleton]; omega
  rw [lineByte_storeLine]
  by_cases hx : x = a
  · rw [dif_pos (hin.mpr hx), if_pos hx, List.getElem_singleton]
  · rw [dif_neg (hin.not.mpr hx), if_neg hx]

/-- A palette store: lane 0 at the lower address (20_memory.md rule R45). -/
theorem lineByte_storeLine_palBytes (a : Nat) (p : PalWord) (x : Nat) :
    lineByte (storeLine a (palBytes p) s) x =
      if x = a then some (lane0 p) else if x = a + 1 then some (lane1 p) else lineByte s x := by
  have happ : storeLine a (palBytes p) s = storeLine (a + 1) [lane1 p] (storeLine a [lane0 p] s) :=
    (storeLine_storeLine_append s a [lane0 p] [lane1 p]).symm
  rw [happ, lineByte_storeLine_one, lineByte_storeLine_one]
  by_cases hx : x = a
  · rw [if_neg (by omega), if_pos hx, if_pos hx]
  · rw [if_neg hx, if_neg hx]

end

/-- Settles O40, one clause for each kind of micro-step. -/
theorem microStepMakesOneAccess : Obligations.MicroStepMakesOneAccess := by
  intro s slot row m hslot hf hrb hm
  have hmicro : rebuildMicro slot row s = .next (rebuildAccess slot row m s) :=
    rebuildMicro_next.mpr ⟨hslot, hf, m, rebuildFrom_eq hrb, rfl⟩
  refine ⟨fun hstamp => ⟨_, hmicro, ?_, fun a => ?_⟩, ?_, ?_⟩
  · have hnext : m + 1 < rebuildSteps s.cfg := Nat.lt_of_le_of_lt hstamp (Nat.lt_add_of_pos_right (by decide))
    rw [rebuildAccess_of_stamp hstamp, rebuildMark_of_lt hnext]
    rfl
  · rw [rebuildAccess_of_stamp hstamp, lineByte_setRb, lineByte_storeLine_one]
    rfl
  · rintro col b rfl hb
    refine ⟨_, hmicro, ?_, fun a => ?_⟩
    · rw [rebuildAccess_of_written hb, rebuildMark_after_column (Nat.lt_of_add_lt_add_left hm)]
      rfl
    · rw [rebuildAccess_of_written hb, lineByte_setRb, lineByte_storeLine_palBytes]
      simp only [prepSample, Nat.add_assoc]
      rfl
  · rintro col rfl hb
    rw [hmicro, rebuildAccess_of_unwritten hb]
    rfl

section

variable {slot : BitVec 2} {row : Byte} {m col : Nat} {s : State}

/-! ### The rest of a rebuild -/

/-- How a run of palette stores ends before column n: all columns are stored, or that one's byte is not written. -/
def endColumns (slot : BitVec 2) (row : Byte) (n : Nat) (s : State) : State :=
  if n < fbStride then raiseFault (.uninitFb slot row n) (setRb (some ⟨slot, row, s.cfg.lineSamples + n⟩) s) else setRb none s

theorem restColumns_eq_endColumns (slot : BitVec 2) (row : Byte) (col : Nat) (s : State) :
    restColumns slot row col s =
      endColumns slot row (col + (columnBytes s slot row col).length)
        (storeLine (prepSample s.cfg row (s.cfg.activeStart + 2 * col))
          ((columnBytes s slot row col).flatMap fun b => palBytes (palEntry s b)) s) := rfl

theorem storeLine_nil (a : Nat) : storeLine a [] s = s := rfl

theorem columnBytes_of_written {b : Byte} (hcol : col < fbStride) (hb : fbByte s slot (fbOffset row col) = some b) :
    columnBytes s slot row col = b :: columnBytes s slot row (col + 1) := by
  have hlen : col < (fbRow s slot row).length := by simpa using hcol
  rw [columnBytes, List.drop_eq_getElem_cons hlen, fbRow_getElem, hb, present_some, columnBytes]

theorem columnBytes_of_unwritten (hcol : col < fbStride) (hb : fbByte s slot (fbOffset row col) = none) :
    columnBytes s slot row col = [] := by
  have hlen : col < (fbRow s slot row).length := by simpa using hcol
  rw [columnBytes, List.drop_eq_getElem_cons hlen, fbRow_getElem, hb, present_none]

theorem restColumns_of_written {b : Byte} (hcol : col < fbStride) (hb : fbByte s slot (fbOffset row col) = some b) :
    restColumns slot row col s = restColumns slot row (col + 1)
      (storeLine (prepSample s.cfg row (s.cfg.activeStart + 2 * col)) (palBytes (palEntry s b)) s) := by
  rw [restColumns_eq_endColumns, restColumns_eq_endColumns, columnBytes_of_written hcol hb]
  rw [List.flatMap_cons, ← storeLine_storeLine_append, List.length_cons, Nat.add_comm _ 1, ← Nat.add_assoc]
  rfl

theorem restColumns_of_unwritten (hcol : col < fbStride) (hb : fbByte s slot (fbOffset row col) = none) :
    restColumns slot row col s =
      raiseFault (.uninitFb slot row col) (setRb (some ⟨slot, row, s.cfg.lineSamples + col⟩) s) := by
  rw [restColumns_eq_endColumns, columnBytes_of_unwritten hcol hb]
  exact if_pos hcol

theorem restColumns_fbStride : restColumns slot row fbStride s = setRb none s := by
  have hnil : columnBytes s slot row fbStride = [] :=
    List.eq_nil_of_length_eq_zero (Nat.le_zero.mp (columnBytes_length_le s slot row fbStride))
  rw [restColumns_eq_endColumns, hnil]
  rfl

/-- The samples that are left to stamp. -/
def stampBytes (c : Config) (m : Nat) : List Byte := ((List.range c.lineSamples).drop m).map (plainLine c)

theorem stampBytes_of_le {c : Config} (hm : c.lineSamples ≤ m) : stampBytes c m = [] := by
  rw [stampBytes, List.drop_eq_nil_of_le (by simpa using hm), List.map_nil]

theorem stampBytes_of_lt {c : Config} (hm : m < c.lineSamples) : stampBytes c m = plainLine c m :: stampBytes c (m + 1) := by
  rw [stampBytes, List.drop_eq_getElem_cons (by simpa using hm), List.getElem_range, List.map_cons, stampBytes]

theorem restStamps_eq_storeLine (row : Byte) (m : Nat) (s : State) :
    restStamps row m s = storeLine (prepSample s.cfg row m) (stampBytes s.cfg m) s := rfl

theorem restStamps_of_le (hm : s.cfg.lineSamples ≤ m) : restStamps row m s = s := by
  rw [restStamps_eq_storeLine, stampBytes_of_le hm, storeLine_nil]

theorem restStamps_of_stamp (hm : m < s.cfg.lineSamples) :
    restStamps row m s = restStamps row (m + 1) (storeLine (prepSample s.cfg row m) [plainLine s.cfg m] s) := by
  rw [restStamps_eq_storeLine, stampBytes_of_lt hm]
  exact (storeLine_storeLine_append s (prepSample s.cfg row m) [plainLine s.cfg m] (stampBytes s.cfg (m + 1))).symm

/-- Past the stamps a rebuild has its palette stores left. -/
theorem rebuildRest_column : rebuildRest slot row (s.cfg.lineSamples + col) s = restColumns slot row col s := by
  rw [rebuildRest, restStamps_of_le (Nat.le_add_right _ _), Nat.add_sub_cancel_left]

theorem rebuildRest_rebuildSteps : rebuildRest slot row (rebuildSteps s.cfg) s = setRb none s :=
  rebuildRest_column.trans restColumns_fbStride

/-- What `rb` holds is not read before the end of the rebuild writes it. -/
theorem rebuildRest_setRb (r : Option Rebuild) : rebuildRest slot row m (setRb r s) = rebuildRest slot row m s := rfl

theorem rebuildRest_of_stamp (hm : m < s.cfg.lineSamples) :
    rebuildRest slot row m s = rebuildRest slot row (m + 1) (rebuildAccess slot row m s) := by
  have hcol : m - s.cfg.lineSamples = m + 1 - s.cfg.lineSamples := by omega
  rw [rebuildAccess_of_stamp hm, rebuildRest_setRb, rebuildRest, restStamps_of_stamp hm, hcol]
  rfl

theorem rebuildRest_of_written {b : Byte} (hcol : col < fbStride) (hb : fbByte s slot (fbOffset row col) = some b) :
    rebuildRest slot row (s.cfg.lineSamples + col) s =
      rebuildRest slot row (s.cfg.lineSamples + col + 1) (rebuildAccess slot row (s.cfg.lineSamples + col) s) := by
  rw [rebuildRest_column, restColumns_of_written hcol hb, rebuildAccess_of_written hb, rebuildRest_setRb]
  exact (rebuildRest_column (col := col + 1)).symm

theorem rebuildRest_of_unwritten (hcol : col < fbStride) (hb : fbByte s slot (fbOffset row col) = none) :
    rebuildRest slot row (s.cfg.lineSamples + col) s = rebuildAccess slot row (s.cfg.lineSamples + col) s := by
  rw [rebuildRest_column, restColumns_of_unwritten hcol hb, rebuildAccess_of_unwritten hb]

/-- A micro-step goes on to the next one, or records the fault that ends the rebuild. -/
theorem rebuildAccess_goesOn_or_stops (slot : BitVec 2) (row : Byte) (hf : s.fault = none) (hm : m < rebuildSteps s.cfg) :
    ((rebuildAccess slot row m s).fault = none ∧
      (rebuildAccess slot row m s).rb = rebuildMark s.cfg slot row (m + 1) ∧
      rebuildRest slot row m s = rebuildRest slot row (m + 1) (rebuildAccess slot row m s)) ∨
    ((rebuildAccess slot row m s).fault ≠ none ∧ rebuildRest slot row m s = rebuildAccess slot row m s) := by
  rcases stamp_or_column hm with hstamp | ⟨col, hcol, rfl⟩
  · refine .inl ⟨?_, ?_, rebuildRest_of_stamp hstamp⟩
    · rw [rebuildAccess_of_stamp hstamp]
      exact hf
    · rw [rebuildAccess_of_stamp hstamp]
      rfl
  · cases hb : fbByte s slot (fbOffset row col) with
    | some b =>
      refine .inl ⟨?_, ?_, rebuildRest_of_written hcol hb⟩
      · rw [rebuildAccess_of_written hb]
        exact hf
      · rw [rebuildAccess_of_written hb]
        rfl
    | none =>
      refine .inr ⟨?_, rebuildRest_of_unwritten hcol hb⟩
      rw [rebuildAccess_of_unwritten hb]
      exact Option.some_ne_none _

/-! ### Micro turns -/

/-- The state with other turns still to be performed. -/
def withSchedule (ts : List Turn) (s : State) : State := { s with schedule := ts }

/-- A micro-step does not read the schedule. -/
theorem rebuildAccess_withSchedule (ts : List Turn) (s : State) (hm : m < rebuildSteps s.cfg) :
    rebuildAccess slot row m (withSchedule ts s) = withSchedule ts (rebuildAccess slot row m s) := by
  rcases stamp_or_column hm with hstamp | ⟨col, -, rfl⟩
  · rw [rebuildAccess_of_stamp hstamp]
    exact rebuildAccess_of_stamp (s := withSchedule ts s) hstamp
  · cases hb : fbByte s slot (fbOffset row col) with
    | some b =>
      rw [rebuildAccess_of_written hb]
      exact rebuildAccess_of_written (s := withSchedule ts s) hb
    | none =>
      rw [rebuildAccess_of_unwritten hb]
      exact rebuildAccess_of_unwritten (s := withSchedule ts s) hb

theorem core_run_succ {s t : State} (h : step s = .next t) (n : Nat) : core.run (n + 1) s = core.run n t := by
  have hcore : core.step s = .next t := h
  simp only [Host.Core.run, hcore]

/-- A micro turn of a rebuild that is enabled performs its access. -/
theorem step_of_micro {turns : List Turn} (hslot : slot.toNat < s.cfg.fbSlots) (hf : s.fault = none)
    (hfrom : rebuildFrom s slot row = some m) (hm : m < rebuildSteps s.cfg) :
    step (withSchedule (.micro slot row :: turns) s) = .next (withSchedule turns (rebuildAccess slot row m s)) := by
  refine step_eq_next.mpr (.inr ⟨_, _, rfl, .inl ?_⟩)
  exact rebuildMicro_next.mpr ⟨hslot, hf, m, hfrom, (rebuildAccess_withSchedule turns s hm).symm⟩

/-- With a fault a micro turn is passed over (60_exceptions.md rule R200, log 3). -/
theorem step_of_micro_faulted {turns : List Turn} (hslot : slot.toNat < s.cfg.fbSlots) (hf : s.fault ≠ none) :
    step (withSchedule (.micro slot row :: turns) s) = .next (withSchedule turns s) :=
  step_eq_next.mpr (.inr ⟨_, _, rfl, .inr ⟨⟨.faultSet, (whenSlot_pos hslot).trans (whenFaultFree_neg hf)⟩, rfl⟩⟩)

theorem run_microTurns_faulted (n : Nat) (ts : List Turn) (hslot : slot.toNat < s.cfg.fbSlots) (hf : s.fault ≠ none) :
    core.run n (withSchedule (List.replicate n (.micro slot row) ++ ts) s) = .next (withSchedule ts s) := by
  induction n with
  | zero => rfl
  | succ n ih => rw [List.replicate_succ, List.cons_append, core_run_succ (step_of_micro_faulted hslot hf), ih]

/-- The n micro-steps that are left, one step of the machine each, end where the rest of the rebuild does. -/
theorem run_microTurns {n : Nat} (ts : List Turn) (hn : m + n = rebuildSteps s.cfg)
    (hrb : s.rb = none ∧ m = 0 ∨ s.rb = rebuildMark s.cfg slot row m) (hslot : slot.toNat < s.cfg.fbSlots)
    (hf : s.fault = none) :
    core.run n (withSchedule (List.replicate n (.micro slot row) ++ ts) s) =
      .next (rebuildRest slot row m (withSchedule ts s)) := by
  induction n generalizing m s with
  | zero =>
    obtain rfl : m = rebuildSteps s.cfg := hn
    have hidle : s.rb = none := by
      rcases hrb with ⟨hrb, -⟩ | hrb
      · exact hrb
      · exact hrb.trans (rebuildMark_rebuildSteps s.cfg)
    have hend : rebuildRest slot row (rebuildSteps s.cfg) (withSchedule ts s) = setRb none (withSchedule ts s) :=
      rebuildRest_rebuildSteps (s := withSchedule ts s)
    rw [hend, ← hidle]
    rfl
  | succ n ih =>
    have hm : m < rebuildSteps s.cfg := by omega
    have hfrom : rebuildFrom s slot row = some m := rebuildFrom_eq (hrb.imp_right fun h => h.trans (rebuildMark_of_lt hm))
    have haccess := rebuildAccess_withSchedule (slot := slot) (row := row) ts s hm
    have hcfg : (rebuildAccess slot row m s).cfg = s.cfg := cfg_eq_of_config_eq (rebuildAccess_config ..)
    rw [List.replicate_succ, List.cons_append, core_run_succ (step_of_micro hslot hf hfrom hm)]
    rcases rebuildAccess_goesOn_or_stops (s := withSchedule ts s) slot row hf hm with ⟨hfault, hmark, hrest⟩ | ⟨hfault, hrest⟩
    · rw [haccess] at hfault hmark hrest
      rw [hrest]
      exact ih (by rw [hcfg]; omega) (.inr (by rw [hcfg]; exact hmark)) (by rw [hcfg]; exact hslot) hfault
    · rw [haccess] at hfault hrest
      rw [hrest]
      exact run_microTurns_faulted n ts (by rw [hcfg]; exact hslot) hfault

end

/-- Settles O39, by the induction over the micro-steps that are left of `run_microTurns`. -/
theorem microStepsMakeRebuildRow : Obligations.MicroStepsMakeRebuildRow := by
  intro s t slot row m ts hrb hm h
  obtain ⟨hslot, hf, m', hfrom, rfl⟩ := execRebuildRow_next.mp h
  obtain rfl : m = m' := Option.some.inj ((rebuildFrom_eq hrb).symm.trans hfrom)
  have hturns : (microTurns s.cfg slot row).drop m = List.replicate (rebuildSteps s.cfg - m) (.micro slot row) :=
    List.drop_replicate
  rw [hturns]
  exact run_microTurns (s := s) ts (Nat.add_sub_of_le (Nat.le_of_lt hm))
    (hrb.imp_right fun h => h.trans (rebuildMark_of_lt hm).symm) hslot hf

end Sys2Proof.Proofs

/-! SUPPORT. One prepared line (43_line_buffers.md rule R165): what REBUILD_ROW leaves in it, where every byte of the row has been
written (O37) and where it stops at one that has not (O38). -/

namespace Sys2Proof.Proofs

open Sys2Proof.Machine Sys2Proof.Laws

/-- The bytes of a row before column n have been written, and if n is a column, its byte has not. -/
structure WrittenUpTo (s : State) (slot : BitVec 2) (row : Byte) (n : Nat) : Prop where
  le : n ≤ fbStride
  written : ∀ col, col < n → (fbByte s slot (fbOffset row col)).isSome = true
  stop : n < fbStride → fbByte s slot (fbOffset row n) = none

/-- In t the prepared line of a row holds the palette words of the row's bytes of s before column n, and the plain pattern
elsewhere (43_line_buffers.md rule R165). -/
structure LineBuilt (s : State) (slot : BitVec 2) (row : Byte) (n : Nat) (t : State) : Prop where
  config : t.config = s.config
  columns : ∀ col b, col < n → fbByte s slot (fbOffset row col) = some b →
    bufSample t (.prep row) (s.cfg.activeStart + 2 * col) = some (lane0 (palEntry s b)) ∧
    bufSample t (.prep row) (s.cfg.activeStart + 2 * col + 1) = some (lane1 (palEntry s b))
  plain : ∀ k, k < s.cfg.lineSamples → (k < s.cfg.activeStart ∨ s.cfg.activeStart + 2 * n ≤ k) →
    bufSample t (.prep row) k = some (plainLine s.cfg k)

section

variable {slot : BitVec 2} {row : Byte} {n : Nat} {s t u : State}

theorem writtenUpTo_fbStride (h : ∀ col, col < fbStride → (fbByte s slot (fbOffset row col)).isSome = true) :
    WrittenUpTo s slot row fbStride := ⟨Nat.le_refl _, h, fun hlt => absurd hlt (Nat.lt_irrefl _)⟩

theorem WrittenUpTo.congr (h : WrittenUpTo s slot row n) (hfb : t.fb = s.fb) : WrittenUpTo t slot row n where
  le := h.le
  written := fun col hcol => by rw [fbByte_congr hfb]; exact h.written col hcol
  stop := fun hn => by rw [fbByte_congr hfb]; exact h.stop hn

theorem WrittenUpTo.length_columnBytes (h : WrittenUpTo s slot row n) : (columnBytes s slot row 0).length = n :=
  columnBytes_length (Nat.zero_le n) h.le (fun col _ hcol => h.written col hcol) h.stop

/-- The stores of REBUILD_ROW run up to the first byte nothing has written. -/
theorem rebuildRest_of_writtenUpTo (h : WrittenUpTo s slot row n) :
    rebuildRest slot row 0 s = { s with
      line := (rebuildRest slot row 0 s).line
      rb := if n < fbStride then some ⟨slot, row, s.cfg.lineSamples + n⟩ else none
      fault := if n < fbStride then some (.uninitFb slot row n) else s.fault } := by
  have hlen : 0 - s.cfg.lineSamples + (columnBytes s slot row (0 - s.cfg.lineSamples)).length = n := by
    rw [Nat.zero_sub, h.length_columnBytes, Nat.zero_add]
  rw [rebuildRest, restColumns_frame, columnBytes_restStamps, hlen]
  rfl

/-- With every byte of the row written only LINE changes. -/
theorem rebuildRest_of_fullyWritten (h : WrittenUpTo s slot row fbStride) (hrb : s.rb = none) :
    rebuildRest slot row 0 s = { s with line := (rebuildRest slot row 0 s).line } := by
  rw [rebuildRest_of_writtenUpTo h, if_neg (Nat.lt_irrefl _), if_neg (Nat.lt_irrefl _), ← hrb]

@[simp] theorem restStamps_cfg (row : Byte) (m : Nat) (s : State) : (restStamps row m s).cfg = s.cfg := rfl

theorem bufSample_eq_lineByte (hc : t.config = s.config) (b : BufId) (k : Nat) :
    bufSample t b k = lineByte t ((addr s.cfg b).toNat + k) := by
  rw [bufSample, cfg_eq_of_config_eq hc]

theorem bufSample_prep (hc : t.config = s.config) (row : Byte) (k : Nat) :
    bufSample t (.prep row) k = lineByte t (prepSample s.cfg row k) := bufSample_eq_lineByte hc _ k

theorem lineByte_restStamps_sample {k : Nat} (hk : k < s.cfg.lineSamples) :
    lineByte (restStamps row 0 s) (prepSample s.cfg row k) = some (plainLine s.cfg k) := by
  have hin : prepSample s.cfg row 0 ≤ prepSample s.cfg row k ∧
      prepSample s.cfg row k < prepSample s.cfg row s.cfg.lineSamples := by
    unfold prepSample; omega
  rw [lineByte_restStamps, if_pos hin, prepSample, Nat.add_sub_cancel_left]

/-- The stamps, then the palette stores over them: what REBUILD_ROW leaves in its line. -/
theorem lineBuilt_rebuildRest (h : WrittenUpTo s slot row n) : LineBuilt s slot row n (rebuildRest slot row 0 s) := by
  have hlen : (columnBytes (restStamps row 0 s) slot row 0).length = n := by
    rw [columnBytes_restStamps, h.length_columnBytes]
  have hrest : rebuildRest slot row 0 s = restColumns slot row 0 (restStamps row 0 s) := by
    rw [rebuildRest, Nat.zero_sub]
  obtain ⟨hstores, hother⟩ := bufSample_restColumns slot row 0 (restStamps row 0 s)
  refine ⟨rebuildRest_config .., fun col b hcol hb => ?_, fun k hk hout => ?_⟩
  · have hbyte := columnBytes_getElem (s := restStamps row 0 s) (hlen.symm ▸ hcol)
    have hstore := hstores col (hlen.symm ▸ hcol)
    rw [Nat.zero_add] at hbyte hstore
    obtain rfl : b = (columnBytes (restStamps row 0 s) slot row 0)[col] := Option.some.inj (hb.symm.trans hbyte)
    rw [hrest]
    exact hstore
  · have hkept := hother (prepSample s.cfg row k) (by
      rw [hlen, restStamps_cfg]
      unfold prepSample
      omega)
    rw [bufSample_prep (rebuildRest_config ..), hrest, hkept, lineByte_restStamps_sample hk]

/-- A sample of a line lies in its buffer (20_memory.md rules R42, R43). -/
theorem inBuf_sample (b : BufId) {k : Nat} (hk : k < s.cfg.lineSamples) : InBuf s.cfg b ((addr s.cfg b).toNat + k) :=
  ⟨Nat.le_add_right _ _, Nat.add_lt_add_left (by rw [lineBytes_eq s.config.ok]; exact hk) _⟩

theorem activeSample_lt {x : Nat} (hx : x < activeSamples) : s.cfg.activeStart + x < s.cfg.lineSamples :=
  Nat.lt_of_lt_of_le (Nat.add_lt_add_left hx _) s.config.ok.activeFits

/-- The line stays built while no byte of it is written. -/
theorem LineBuilt.kept (h : LineBuilt s slot row n t) (hn : n ≤ fbStride) (hc : u.config = t.config)
    (hl : ∀ a, InBuf s.cfg (.prep row) a → lineByte u a = lineByte t a) : LineBuilt s slot row n u := by
  have hsample : ∀ k, k < s.cfg.lineSamples → bufSample u (.prep row) k = bufSample t (.prep row) k := by
    intro k hk
    rw [bufSample_prep (hc.trans h.config), bufSample_prep h.config]
    exact hl _ (inBuf_sample _ hk)
  refine ⟨hc.trans h.config, fun col b hcol hb => ?_, fun k hk hout => (hsample k hk).trans (h.plain k hk hout)⟩
  unfold fbStride at hn
  have h0 := hsample _ (activeSample_lt (x := 2 * col) (by unfold activeSamples; omega))
  have h1 := hsample _ (activeSample_lt (x := 2 * col + 1) (by unfold activeSamples; omega))
  rw [← Nat.add_assoc] at h1
  rw [h0, h1]
  exact h.columns col b hcol hb

/-- What is built depends on the configuration, the palette and the frame buffers alone. -/
theorem LineBuilt.of_source (h : LineBuilt u slot row n t) (hc : u.config = s.config) (hp : u.pal = s.pal) (hfb : u.fb = s.fb) :
    LineBuilt s slot row n t := by
  have hcfg : u.cfg = s.cfg := cfg_eq_of_config_eq hc
  refine ⟨h.config.trans hc, fun col b hcol hb => ?_, fun k hk hout => ?_⟩
  · rw [← palEntry_congr hc hp, ← hcfg]
    exact h.columns col b hcol ((fbByte_congr hfb _ _).trans hb)
  · rw [← hcfg] at hk hout ⊢
    exact h.plain k hk hout

/-- The active samples with the constructed palette: the lanes of the pixels (41_palette.md rules R122, R123). -/
theorem LineBuilt.pixels (h : LineBuilt s slot row fbStride t) (hpal : PaletteBuilt s)
    (hw : ∀ col, col < fbStride → (fbByte s slot (fbOffset row col)).isSome = true) {x : Nat} (hx : x < activeSamples) :
    bufSample t (.prep row) (s.cfg.activeStart + x) = (pixel s slot x row).map (lane s.cfg) := by
  have hcol : x / 2 < fbStride := by unfold fbStride; unfold activeSamples at hx; omega
  obtain ⟨b, hb⟩ := Option.isSome_iff_exists.mp (hw _ hcol)
  obtain ⟨h0, h1⟩ := h.columns _ b hcol hb
  rw [hpal, lane0_palWord] at h0
  rw [hpal, lane1_palWord] at h1
  rw [pixel, hb, Option.map_some, Option.map_some]
  rcases Nat.mod_two_eq_zero_or_one x with hpar | hpar
  · have hx2 : s.cfg.activeStart + x = s.cfg.activeStart + 2 * (x / 2) := by omega
    rw [if_pos hpar, hx2, h0]
  · have hx2 : s.cfg.activeStart + x = s.cfg.activeStart + 2 * (x / 2) + 1 := by omega
    rw [if_neg (by omega), hx2, h1]

end

/-- Settles O37: every byte of the row is written, so the line is built up to the last column. -/
theorem rebuildRowBuildsTheLine : Obligations.RebuildRowBuildsTheLine := by
  intro s slot row hslot hf hrb hw
  have hfull : WrittenUpTo s slot row fbStride := writtenUpTo_fbStride hw
  have hbuilt := lineBuilt_rebuildRest hfull
  refine ⟨_, execRebuildRow_next.mpr ⟨hslot, hf, 0, rebuildFrom_eq (.inl ⟨hrb, rfl⟩), rfl⟩,
    rebuildRest_of_fullyWritten hfull hrb, hbuilt.columns, fun hpal x hx => hbuilt.pixels hpal hw hx, hbuilt.plain,
    fun a ha => lineByte_rebuildRest_outside ha⟩

/-- Settles O38: the line is built up to the first unwritten column. -/
theorem rebuildRowStopsAtUnwrittenByte : Obligations.RebuildRowStopsAtUnwrittenByte := by
  intro s slot row c hslot hf hrb hc hw hnone
  have hup : WrittenUpTo s slot row c := ⟨Nat.le_of_lt hc, hw, fun _ => hnone⟩
  have hbuilt := lineBuilt_rebuildRest hup
  refine ⟨_, execRebuildRow_next.mpr ⟨hslot, hf, 0, rebuildFrom_eq (.inl ⟨hrb, rfl⟩), rfl⟩, ?_, hbuilt.columns, hbuilt.plain,
    fun a ha => lineByte_rebuildRest_outside ha⟩
  rw [rebuildRest_of_writtenUpTo hup, if_pos hc, if_pos hc]

end Sys2Proof.Proofs

/-! SUPPORT. REBUILD (43_line_buffers.md rules R167, R169): the 256 prepared lines from a written slot (O42), from zeros (O44), and
where it stops at an unwritten byte (O43). -/

namespace Sys2Proof.Proofs

open Sys2Proof.Machine Sys2Proof.Laws

section

variable {slot : BitVec 2} {row : Byte} {rows rest : List Byte} {n : Nat} {s t : State}

/-! ### Several rows -/

/-- Every byte of the rows of a list has been written. -/
def RowsWritten (s : State) (slot : BitVec 2) (rows : List Byte) : Prop := ∀ r ∈ rows, WrittenUpTo s slot r fbStride

theorem RowsWritten.tail (h : RowsWritten s slot (row :: rows)) (hfb : t.fb = s.fb) : RowsWritten t slot rows :=
  fun r hr => (h r (List.mem_cons_of_mem _ hr)).congr hfb

/-- A written row does not end the rebuild of the rows. -/
theorem rebuildRows_cons (h : WrittenUpTo s slot row fbStride) (hf : s.fault = none) (hrb : s.rb = none) :
    rebuildRows slot (row :: rest) s = rebuildRows slot rest (rebuildRest slot row 0 s) := by
  have hfault : (rebuildRest slot row 0 s).fault = none := by rw [rebuildRest_of_fullyWritten h hrb, hf]
  rw [rebuildRows, if_pos hfault]

/-- The row that faults ends the rebuild of the rows. -/
theorem rebuildRows_cons_of_unwritten (h : WrittenUpTo s slot row n) (hn : n < fbStride) :
    rebuildRows slot (row :: rest) s = rebuildRest slot row 0 s := by
  have hfault : (rebuildRest slot row 0 s).fault ≠ none := by
    rw [rebuildRest_of_writtenUpTo h, if_pos hn, if_pos hn]
    exact Option.some_ne_none _
  rw [rebuildRows, if_neg hfault]

/-- Over written rows LINE alone changes. -/
theorem rebuildRows_of_written (h : RowsWritten s slot rows) (hf : s.fault = none) (hrb : s.rb = none) :
    rebuildRows slot rows s = { s with line := (rebuildRows slot rows s).line } := by
  induction rows generalizing s with
  | nil => rfl
  | cons r rest ih =>
    have hr := h r List.mem_cons_self
    have hone := rebuildRest_of_fullyWritten hr hrb
    rw [rebuildRows_cons hr hf hrb, ih (h.tail (rebuildRest_fb ..)) (by rw [hone, hf]) (by rw [hone, hrb]), hone]

theorem rebuildRows_append (h : RowsWritten s slot rows) (hf : s.fault = none) (hrb : s.rb = none) :
    rebuildRows slot (rows ++ rest) s = rebuildRows slot rest (rebuildRows slot rows s) := by
  induction rows generalizing s with
  | nil => rfl
  | cons r rows ih =>
    have hr := h r List.mem_cons_self
    have hone := rebuildRest_of_fullyWritten hr hrb
    rw [List.cons_append, rebuildRows_cons hr hf hrb, rebuildRows_cons hr hf hrb,
      ih (h.tail (rebuildRest_fb ..)) (by rw [hone, hf]) (by rw [hone, hrb])]

/-- A byte of one prepared line is in no other. -/
theorem not_inBuf_prep {r : Byte} {a : Nat} (ha : InBuf s.cfg (.prep row) a) (hne : r ≠ row) : ¬ InBuf s.cfg (.prep r) a :=
  fun hr => hne (BufId.prep.inj (inBuf_unique s.config.ok hr ha))

/-- Each row's line is built, and the rebuilds of the other rows leave it. -/
theorem lineBuilt_rebuildRows (h : RowsWritten s slot rows) (hf : s.fault = none) (hrb : s.rb = none) (hrow : row ∈ rows) :
    LineBuilt s slot row fbStride (rebuildRows slot rows s) := by
  induction rows generalizing s with
  | nil => cases hrow
  | cons r rest ih =>
    have hr := h r List.mem_cons_self
    have hone := rebuildRest_of_fullyWritten hr hrb
    have hcfg : (rebuildRest slot r 0 s).cfg = s.cfg := cfg_eq_of_config_eq (rebuildRest_config ..)
    rw [rebuildRows_cons hr hf hrb]
    by_cases hin : row ∈ rest
    · have hbuilt := ih (h.tail (rebuildRest_fb ..)) (by rw [hone, hf]) (by rw [hone, hrb]) hin
      exact hbuilt.of_source (rebuildRest_config ..) (rebuildRest_pal ..) (rebuildRest_fb ..)
    · obtain rfl : row = r := (List.mem_cons.mp hrow).resolve_right hin
      refine (lineBuilt_rebuildRest hr).kept (Nat.le_refl _) (rebuildRows_config ..) fun a ha => ?_
      refine lineByte_rebuildRows_outside fun r' hr' => ?_
      rw [hcfg]
      exact not_inBuf_prep ha fun heq => hin (heq ▸ hr')

/-! ### The rows before a row -/

/-- The rows a rebuild has done before it comes to a row. -/
def rowsBefore (row : Byte) : List Byte := allRows.take row.toNat

theorem allRows_split (row : Byte) : allRows = rowsBefore row ++ row :: allRows.drop (row.toNat + 1) := by
  have hlen : row.toNat < allRows.length := by simpa [allRows] using row.isLt
  have hrow : allRows[row.toNat] = row := by simp [allRows]
  have hdrop : allRows.drop row.toNat = row :: allRows.drop (row.toNat + 1) := by
    rw [List.drop_eq_getElem_cons hlen, hrow]
  rw [rowsBefore, ← hdrop, List.take_append_drop]

theorem mem_rowsBefore {r : Byte} : r ∈ rowsBefore row ↔ r.toNat < row.toNat := by
  have hr := r.isLt
  simp only [rowsBefore, allRows, ← List.map_take, List.take_range, List.mem_map, List.mem_range]
  constructor
  · rintro ⟨i, hi, rfl⟩
    have := row.isLt
    rw [BitVec.toNat_ofNat]
    omega
  · exact fun h => ⟨r.toNat, by omega, by simp⟩

/-! ### The row that stops a rebuild -/

/-- The state in which a rebuild of the slot comes to a row. -/
def beforeRow (slot : BitVec 2) (row : Byte) (s : State) : State := rebuildRows slot (rowsBefore row) s

@[simp] theorem beforeRow_fb (slot : BitVec 2) (row : Byte) (s : State) : (beforeRow slot row s).fb = s.fb := by
  rw [beforeRow, rebuildRows_frame]

theorem beforeRow_frame (h : RowsWritten s slot (rowsBefore row)) (hf : s.fault = none) (hrb : s.rb = none) :
    beforeRow slot row s = { s with line := (beforeRow slot row s).line } := rebuildRows_of_written h hf hrb

theorem writtenUpTo_beforeRow (h : WrittenUpTo s slot row n) : WrittenUpTo (beforeRow slot row s) slot row n :=
  h.congr (beforeRow_fb slot row s)

@[simp] theorem beforeRow_cfg (slot : BitVec 2) (row : Byte) (s : State) : (beforeRow slot row s).cfg = s.cfg :=
  cfg_eq_of_config_eq (rebuildRows_config ..)

/-- A rebuild whose first unwritten byte is in a row ends with that row. -/
theorem rebuildRows_allRows_of_stop (h : RowsWritten s slot (rowsBefore row)) (hup : WrittenUpTo s slot row n)
    (hn : n < fbStride) (hf : s.fault = none) (hrb : s.rb = none) :
    rebuildRows slot allRows s = rebuildRest slot row 0 (beforeRow slot row s) := by
  rw [allRows_split row, rebuildRows_append h hf hrb]
  exact rebuildRows_cons_of_unwritten (writtenUpTo_beforeRow hup) hn

/-- The row that stops the rebuild has its line stamped and its columns before the stop stored. -/
theorem lineBuilt_stoppedRow (hup : WrittenUpTo s slot row n) :
    LineBuilt s slot row n (rebuildRest slot row 0 (beforeRow slot row s)) :=
  (lineBuilt_rebuildRest (writtenUpTo_beforeRow hup)).of_source (rebuildRows_config ..) (rebuildRows_pal ..)
    (beforeRow_fb slot row s)

/-- The rows before it stay built. -/
theorem lineBuilt_beforeStoppedRow {r : Byte} (h : RowsWritten s slot (rowsBefore row)) (hf : s.fault = none)
    (hrb : s.rb = none) (hr : r.toNat < row.toNat) :
    LineBuilt s slot r fbStride (rebuildRest slot row 0 (beforeRow slot row s)) := by
  have hne : row ≠ r := by
    rintro rfl
    exact Nat.lt_irrefl _ hr
  refine (lineBuilt_rebuildRows h hf hrb (mem_rowsBefore.mpr hr)).kept (Nat.le_refl _) (rebuildRest_config ..) fun a ha => ?_
  refine lineByte_rebuildRest_outside ?_
  rw [beforeRow_cfg]
  exact not_inBuf_prep ha hne

end

/-- A slot with every byte written has its rows written (20_memory.md rule R46). -/
theorem rowsWritten_of_slot {s : State} {slot : BitVec 2} (h : ∀ off, off < fbBytes → (fbByte s slot off).isSome = true)
    (rows : List Byte) : RowsWritten s slot rows :=
  fun r _ => writtenUpTo_fbStride fun _ hcol => h _ (fbOffset_lt r hcol)

/-- Settles O42: all 256 rows are written, so each line is built and no later row touches it. -/
theorem rebuildBuildsEveryLine : Obligations.RebuildBuildsEveryLine := by
  intro s slot hslot hf hrb hw
  have hrows : RowsWritten s slot allRows := rowsWritten_of_slot hw allRows
  have hbuilt : ∀ row, LineBuilt s slot row fbStride (rebuildRows slot allRows s) := fun row =>
    lineBuilt_rebuildRows hrows hf hrb (mem_allRows row)
  exact ⟨_, execRebuild_next.mpr ⟨hslot, hf, hrb, rfl⟩, rebuildRows_of_written hrows hf hrb,
    fun row => (hbuilt row).columns, fun row => (hbuilt row).plain,
    fun a ha => lineByte_rebuildRows_outside fun r _ => ha r⟩

/-- A palette word from its two lanes (30_encoding.md rule R72). -/
theorem lane1_append_lane0 (p : PalWord) : lane1 p ++ lane0 p = p := BitVec.extractLsb'_append_extractLsb' (w := 8) (len := 8)

/-- Settles O44: O42 with every byte 0. -/
theorem allZeroRebuild : Obligations.AllZeroRebuild := by
  intro s slot hslot hf hrb hzero
  obtain ⟨t, ht, hframe, hcols, hplain, -⟩ :=
    rebuildBuildsEveryLine s slot hslot hf hrb fun off hoff => Option.isSome_of_mem (hzero off hoff)
  have hpal : palEntry t 0 = palEntry s 0 := by rw [hframe]; rfl
  refine ⟨t, ht, fun row => ⟨fun c hc => ?_, hplain row⟩⟩
  obtain ⟨hlo, hhi⟩ := hcols row c 0 hc (hzero _ (fbOffset_lt row hc))
  exact ⟨_, _, hlo, hhi, (lane1_append_lane0 _).trans hpal.symm⟩

/-- Settles O43: the rows before the stop are written, the row of the stop is written up to its column. -/
theorem rebuildStopsAtUnwrittenByte : Obligations.RebuildStopsAtUnwrittenByte := by
  intro s slot row c hslot hf hrb hc hbefore hw hnone
  have hup : WrittenUpTo s slot row c := ⟨Nat.le_of_lt hc, hw, fun _ => hnone⟩
  have hrows : RowsWritten s slot (rowsBefore row) := fun r hr => writtenUpTo_fbStride (hbefore r (mem_rowsBefore.mp hr))
  have hrow := lineBuilt_stoppedRow hup
  have hlines := fun r hr => lineBuilt_beforeStoppedRow (r := r) hrows hf hrb hr
  refine ⟨rebuildRest slot row 0 (beforeRow slot row s), ?_, ?_, fun r col b hcol hb => ?_, fun r k hk hout => ?_, fun a ha => ?_⟩
  · exact execRebuild_next.mpr ⟨hslot, hf, hrb, (rebuildRows_allRows_of_stop hrows hup hc hf hrb).symm⟩
  · rw [rebuildRest_of_writtenUpTo (writtenUpTo_beforeRow hup), if_pos hc, if_pos hc, beforeRow_frame hrows hf hrb]
  · rcases hcol with ⟨hr, hcol⟩ | ⟨rfl, hcol⟩
    · exact (hlines r hr).columns col b hcol hb
    · exact hrow.columns col b hcol hb
  · rcases hout with ⟨hr, hout⟩ | ⟨rfl, hout⟩
    · exact (hlines r hr).plain k hk hout
    · exact hrow.plain k hk hout
  · rw [lineByte_rebuildRest_outside (by rw [beforeRow_cfg]; exact ha row (Nat.le_refl _))]
    exact lineByte_rebuildRows_outside fun r hr => ha r (Nat.le_of_lt (mem_rowsBefore.mp hr))

end Sys2Proof.Proofs

/-! SUPPORT. The line patterns and the templates (43_line_buffers.md rules R161 to R164): O34, O35, O36. -/

namespace Sys2Proof.Proofs

open Sys2Proof.Machine Sys2Proof.Laws

/-! ### The two line patterns -/

section

variable {c : Config} {k : Nat}

theorem plainLine_of_inPulse (h : InPulse c k) : plainLine c k = c.hSync ^^^ c.syncPolarity := if_pos h

theorem plainLine_of_not_inPulse (h : ¬ InPulse c k) : plainLine c k = c.noSync ^^^ c.syncPolarity := if_neg h

theorem vsyncLine_of_inPulse (h : InPulse c k) : vsyncLine c k = c.vhSync ^^^ c.syncPolarity := if_pos h

theorem vsyncLine_of_not_inPulse (h : ¬ InPulse c k) : vsyncLine c k = c.vSync ^^^ c.syncPolarity := if_neg h

end

/-- Settles O34: a sample lies in the pulse or outside it. -/
theorem linePatterns : Obligations.LinePatterns := by
  intro s k hk
  refine ⟨fun hlo hhi => ?_, fun hout => ?_⟩
  · have hpulse : InPulse s.cfg k := ⟨hlo, hhi⟩
    rw [← plainLine_of_inPulse hpulse, ← vsyncLine_of_inPulse hpulse]
    exact ⟨execPlainLine_next.mpr ⟨hk, rfl⟩, execVsyncLine_next.mpr ⟨hk, rfl⟩⟩
  · have hpulse : ¬ InPulse s.cfg k := by unfold InPulse; omega
    rw [← plainLine_of_not_inPulse hpulse, ← vsyncLine_of_not_inPulse hpulse]
    exact ⟨execPlainLine_next.mpr ⟨hk, rfl⟩, execVsyncLine_next.mpr ⟨hk, rfl⟩⟩

/-! ### TPL_BUILD -/

/-- Writing one template, seen at sample k of any template: its own content, the others' as it was. -/
theorem bufSample_buildTpl (j tpl : BitVec 2) {s : State} {k : Nat} (hk : k < s.cfg.lineSamples) :
    bufSample (buildTpl j s) (.tpl tpl) k = if tpl = j then some (tplSample s.cfg j k) else bufSample s (.tpl tpl) k := by
  have hin : InBuf s.cfg (.tpl tpl) ((addr s.cfg (.tpl tpl)).toNat + k) := inBuf_sample _ hk
  rw [bufSample_eq_lineByte (buildTpl_config j s), lineByte_buildTpl]
  by_cases h : tpl = j
  · subst h
    rw [if_pos hin, if_pos rfl, Nat.add_sub_cancel_left]
  · have hout : ¬ InBuf s.cfg (.tpl j) ((addr s.cfg (.tpl tpl)).toNat + k) := fun hj =>
      h (BufId.tpl.inj (inBuf_unique s.config.ok hin hj))
    rw [if_neg hout, if_neg h]
    rfl

/-- The state TPL_BUILD leaves. -/
def withTemplates (s : State) : State := buildTpl 3 (buildTpl 2 (buildTpl 1 (buildTpl 0 s)))

theorem withTemplates_frame (s : State) : withTemplates s = { s with line := (withTemplates s).line } := rfl

/-- TPL_BUILD writes every template, whatever it held. -/
theorem bufSample_withTemplates (tpl : BitVec 2) {s : State} {k : Nat} (hk : k < s.cfg.lineSamples) :
    bufSample (withTemplates s) (.tpl tpl) k = some (tplSample s.cfg tpl k) := by
  have hone : ∀ (j : BitVec 2) (t : State), t.config = s.config → bufSample (buildTpl j t) (.tpl tpl) k =
      if tpl = j then some (tplSample s.cfg j k) else bufSample t (.tpl tpl) k := by
    intro j t hc
    rw [← cfg_eq_of_config_eq hc]
    exact bufSample_buildTpl j tpl (by rw [cfg_eq_of_config_eq hc]; exact hk)
  have hall : ∀ t : BitVec 2, t = 3 ∨ t = 2 ∨ t = 1 ∨ t = 0 := by decide
  rw [withTemplates, hone 3 (buildTpl 2 (buildTpl 1 (buildTpl 0 s))) rfl, hone 2 (buildTpl 1 (buildTpl 0 s)) rfl,
    hone 1 (buildTpl 0 s) rfl, hone 0 s rfl]
  rcases hall tpl with rfl | rfl | rfl | rfl <;> rfl

theorem lineByte_withTemplates_outside {s : State} {a : Nat} (h : ∀ tpl, ¬ InBuf s.cfg (.tpl tpl) a) :
    lineByte (withTemplates s) a = lineByte s a := by
  have hone : ∀ (j : BitVec 2) (t : State), t.config = s.config → lineByte (buildTpl j t) a = lineByte t a := by
    intro j t hc
    rw [lineByte_buildTpl, if_neg (by rw [cfg_eq_of_config_eq hc]; exact h j)]
  rw [withTemplates, hone 3 (buildTpl 2 (buildTpl 1 (buildTpl 0 s))) rfl, hone 2 (buildTpl 1 (buildTpl 0 s)) rfl,
    hone 1 (buildTpl 0 s) rfl, hone 0 s rfl]

/-- Settles O35, template by template. -/
theorem tplBuildWritesTheTemplates : Obligations.TplBuildWritesTheTemplates := fun s hf =>
  ⟨withTemplates s, execTplBuild_next.mpr ⟨hf, rfl⟩, withTemplates_frame s,
    fun _ hk => ⟨bufSample_withTemplates 0 hk, bufSample_withTemplates 1 hk, bufSample_withTemplates 2 hk,
      bufSample_withTemplates 3 hk⟩,
    fun _ ha => lineByte_withTemplates_outside ha⟩

/-- A line of 336 samples at divider 1 holds the active portion at no other divider (00_scope.md rule R6). -/
theorem lineSamples_of_wholeLine {c : Config} (hw : c.WellFormed) (h : c.wholeLine = 336) : c.lineSamples = 336 := by
  have hfits := hw.activeFits
  have hpos := hw.dividerPos
  unfold Config.lineSamples activeSamples at *
  rw [h] at hfits ⊢
  have hdiv : c.divider = 1 := by
    by_contra hne
    have hhalf : 336 / c.divider ≤ 336 / 2 := Nat.div_le_div_left (by omega) (by decide)
    omega
  rw [hdiv]

/-- Settles O36: TPL(0) holds the plain pattern at those numbers. -/
theorem blankTemplateContent : Obligations.BlankTemplateContent := by
  intro s hf hpol hline hwidth
  have hsamples := lineSamples_of_wholeLine s.config.ok hline
  refine ⟨withTemplates s, execTplBuild_next.mpr ⟨hf, rfl⟩, hsamples, fun k hk => ?_⟩
  rw [← hpol, ← hwidth]
  exact bufSample_withTemplates 0 (by rw [hsamples]; exact hk)

end Sys2Proof.Proofs

/-! SUPPORT. What the operations of the rotation protocol do, said once (44_host_rotation.md rules R182 to R186): each branch of the
two acquire operations, the cleared frame buffers, one stored byte, the buffering mode: O45 to O49. -/

namespace Sys2Proof.Proofs

open Sys2Proof.Machine Sys2Proof.Laws

/-! ### The acquire operations, branch by branch -/

section

variable {s : State}

theorem execAcqWrite_of_rotating (hf : s.fault = none) (hrot : rotating s = true) :
    execAcqWrite s = .next (acquireForWrite s) :=
  execAcqWrite_next.mpr ⟨hf, (if_pos hrot).symm⟩

theorem execAcqWrite_of_not_rotating (hf : s.fault = none) (hrot : rotating s = false) :
    execAcqWrite s = .next (giveResult (.slot 0) s) :=
  execAcqWrite_next.mpr ⟨hf, (if_neg (by simp [hrot])).symm⟩

theorem execAcqDisplay_of_rotating (hf : s.fault = none) (hrot : rotating s = true) :
    execAcqDisplay s = .next (acquireForDisplay s) :=
  execAcqDisplay_next.mpr ⟨hf, (if_pos hrot).symm⟩

theorem execAcqDisplay_of_not_rotating (hf : s.fault = none) (hrot : rotating s = false) :
    execAcqDisplay s = .next (giveResult (.slot 0) s) :=
  execAcqDisplay_next.mpr ⟨hf, (if_neg (by simp [hrot])).symm⟩

/-- The `ready` flags once ACQ_WRITE has committed the slot it holds (R183). -/
def committed (s : State) : Ready := s.ready.set s.inIndex false

theorem acquireForWrite_of_first (h : (committed s).get (s.inIndex + 1) = true) :
    acquireForWrite s = claimSlot (s.inIndex + 1) (setReady s.inIndex false s) := if_pos h

theorem acquireForWrite_of_second (h1 : (committed s).get (s.inIndex + 1) = false)
    (h2 : (committed s).get (s.inIndex + 2) = true) :
    acquireForWrite s = claimSlot (s.inIndex + 2) (setReady s.inIndex false s) :=
  (if_neg (ne_true_of_eq_false h1)).trans (if_pos h2)

theorem acquireForWrite_of_none (h1 : (committed s).get (s.inIndex + 1) = false)
    (h2 : (committed s).get (s.inIndex + 2) = false) :
    acquireForWrite s = giveResult (.slot noSlotCode) (setReady s.inIndex false s) :=
  (if_neg (ne_true_of_eq_false h1)).trans (if_neg (ne_true_of_eq_false h2))

theorem acquireForDisplay_of_firstFrame (h : s.firstFrame = true) :
    acquireForDisplay s = giveResult (.slot 0) (closeFirstFrame s) := if_pos h

theorem acquireForDisplay_of_first (h : s.firstFrame = false) (h1 : s.ready.get (s.outIndex + 1) = false) :
    acquireForDisplay s = showSlot (s.outIndex + 1) s :=
  (if_neg (ne_true_of_eq_false h)).trans (if_pos h1)

theorem acquireForDisplay_of_second (h : s.firstFrame = false) (h1 : s.ready.get (s.outIndex + 1) = true)
    (h2 : s.ready.get (s.outIndex + 2) = false) : acquireForDisplay s = showSlot (s.outIndex + 2) s :=
  (if_neg (ne_true_of_eq_false h)).trans ((if_neg (ne_false_of_eq_true h1)).trans (if_pos h2))

theorem acquireForDisplay_of_none (h : s.firstFrame = false) (h1 : s.ready.get (s.outIndex + 1) = true)
    (h2 : s.ready.get (s.outIndex + 2) = true) : acquireForDisplay s = giveResult (.slot (slotCode s.outIndex)) s :=
  (if_neg (ne_true_of_eq_false h)).trans ((if_neg (ne_false_of_eq_true h1)).trans (if_neg (ne_false_of_eq_true h2)))

end

/-- Settles O46: the rotation is not in use, or a neighbour's flag decides. -/
theorem acqWriteTakesAReadySlot : Obligations.AcqWriteTakesAReadySlot := by
  intro s hf
  refine ⟨fun hidle => execAcqWrite_of_not_rotating hf (rotating_eq_false.mpr hidle), fun hb hn => ?_⟩
  have hwrite : exec .acqWrite s = .next (acquireForWrite s) := execAcqWrite_of_rotating hf (rotating_eq_true.mpr ⟨hb, hn⟩)
  rw [hwrite]
  refine ⟨fun h1 => ?_, fun h1 h2 => ?_, fun h1 h2 => ?_⟩
  · exact congrArg _ (acquireForWrite_of_first h1)
  · exact congrArg _ (acquireForWrite_of_second h1 h2)
  · exact congrArg _ (acquireForWrite_of_none h1 h2)

/-- Settles O47: the rotation is not in use, the call is the first, or a neighbour's flag decides. -/
theorem acqDisplayPicksASlot : Obligations.AcqDisplayPicksASlot := by
  intro s hf
  refine ⟨fun hidle => execAcqDisplay_of_not_rotating hf (rotating_eq_false.mpr hidle), fun hb hn => ?_⟩
  have hdisplay : exec .acqDisplay s = .next (acquireForDisplay s) :=
    execAcqDisplay_of_rotating hf (rotating_eq_true.mpr ⟨hb, hn⟩)
  rw [hdisplay]
  refine ⟨fun h => ?_, fun h h1 => ?_, fun h h1 h2 => ?_, fun h h1 h2 => ?_⟩
  · exact congrArg _ (acquireForDisplay_of_firstFrame h)
  · exact congrArg _ (acquireForDisplay_of_first h h1)
  · exact congrArg _ (acquireForDisplay_of_second h h1 h2)
  · exact congrArg _ (acquireForDisplay_of_none h h1 h2)

/-! ### SET_BUFFERING -/

theorem execSetBuffering_of_oneSlot {s : State} (hf : s.fault = none) (hone : s.cfg.fbSlots = 1) :
    execSetBuffering true s = .refused .oneSlotOnly :=
  (whenFaultFree_pos hf).trans (if_pos ⟨rfl, hone⟩)

/-- Settles O49: the mode alone, or the refusal; with the mode off the rotation is not in use. -/
theorem setBufferingWritesTheMode : Obligations.SetBufferingWritesTheMode := by
  refine fun s e hf => ⟨fun hallowed => execSetBuffering_next.mpr ⟨hf, hallowed, rfl⟩, ?_, fun hoff => ?_⟩
  · rintro rfl hone
    exact execSetBuffering_of_oneSlot hf hone
  · have hrot : rotating s = false := rotating_eq_false.mpr (.inl hoff)
    exact ⟨execAcqWrite_of_not_rotating hf hrot, execAcqDisplay_of_not_rotating hf hrot⟩

/-! ### The frame buffers -/

/-- Settles O45: the store reaches the addressed byte alone. -/
theorem fbWriteStoresOneByte : Obligations.FbWriteStoresOneByte := fun s slot off val hslot hf =>
  ⟨storeFb slot off.toNat [val] s, execFbWrite_next.mpr ⟨hslot, hf, rfl⟩, rfl,
    fun slot' _ hoff' => fbByte_storeFb_one s slot slot' val off.isLt hoff'⟩

/-- What a write lists lies in the range written. -/
theorem mem_cellsAt_filter {α : Type} {a : Nat} {vs : List α} {p : Nat × α → Bool} {c : Nat × α}
    (hc : c ∈ (cellsAt a vs).filter p) : a ≤ c.1 ∧ c.1 < a + vs.length := by
  obtain ⟨i, hi, rfl⟩ := mem_cellsAt.mp (List.mem_of_mem_filter hc)
  simpa using hi

section

variable {α : Type} [DecidableEq α] (init : Nat → Option α) (m : List (Nat × α)) (a : Nat) {vs : List α}

theorem memWrite_of_ne_nil (hv : vs ≠ []) :
    memWrite init m a vs = m.filter (fun c => decide (c.1 < a)) ++
      (cellsAt a vs).filter (fun c => decide (init c.1 ≠ some c.2)) ++ m.filter (fun c => decide (a + vs.length ≤ c.1)) :=
  if_neg (by simpa using hv)

theorem filter_below_memWrite (hv : vs ≠ []) :
    (memWrite init m a vs).filter (fun c => decide (c.1 < a)) = m.filter fun c => decide (c.1 < a) := by
  have hwritten : ((cellsAt a vs).filter fun c => decide (init c.1 ≠ some c.2)).filter (fun c => decide (c.1 < a)) = [] :=
    List.filter_eq_nil_iff.mpr fun c hc => by have := mem_cellsAt_filter hc; simp; omega
  have habove : (m.filter fun c => decide (a + vs.length ≤ c.1)).filter (fun c => decide (c.1 < a)) = [] :=
    List.filter_eq_nil_iff.mpr fun c hc => by have := (List.mem_filter.mp hc).2; simp at this ⊢; omega
  rw [memWrite_of_ne_nil init m a hv, List.filter_append, List.filter_append, hwritten, habove]
  simp

theorem filter_above_memWrite (hv : vs ≠ []) :
    (memWrite init m a vs).filter (fun c => decide (a + vs.length ≤ c.1)) =
      m.filter fun c => decide (a + vs.length ≤ c.1) := by
  have hlen : 0 < vs.length := List.length_pos_of_ne_nil hv
  have hwritten : ((cellsAt a vs).filter fun c => decide (init c.1 ≠ some c.2)).filter
      (fun c => decide (a + vs.length ≤ c.1)) = [] :=
    List.filter_eq_nil_iff.mpr fun c hc => by have := mem_cellsAt_filter hc; simp; omega
  have hbelow : (m.filter fun c => decide (c.1 < a)).filter (fun c => decide (a + vs.length ≤ c.1)) = [] :=
    List.filter_eq_nil_iff.mpr fun c hc => by have := (List.mem_filter.mp hc).2; simp at this ⊢; omega
  rw [memWrite_of_ne_nil init m a hv, List.filter_append, List.filter_append, hwritten, hbelow]
  simp

/-- A write made twice is the write made once, the memory in canonical form or not. -/
theorem memWrite_memWrite_self (vs : List α) : memWrite init (memWrite init m a vs) a vs = memWrite init m a vs := by
  by_cases hv : vs = []
  · subst hv; rfl
  · rw [memWrite_of_ne_nil init (memWrite init m a vs) a hv, filter_below_memWrite init m a hv,
      filter_above_memWrite init m a hv, memWrite_of_ne_nil init m a hv]

end

/-- The keys below `n * fbBytes` are those of the first `n` slots. -/
theorem fbKey_lt_iff (slot : BitVec 2) {off : Nat} (hoff : off < fbBytes) (n : Nat) :
    fbKey slot off < n * fbBytes ↔ slot.toNat < n := by
  unfold fbKey fbBytes at *
  omega

section

variable (s : State)

theorem fbByte_zeroFb (slot : BitVec 2) (off : Nat) :
    fbByte (zeroFb s) slot off = if fbKey slot off < s.cfg.fbSlots * fbBytes then some 0 else fbByte s slot off := by
  have hfirst : fbKey 0#2 0 = 0 := rfl
  rw [zeroFb, fbByte_storeFb]
  simp [hfirst]

theorem zeroFb_zeroFb : zeroFb (zeroFb s) = zeroFb s :=
  congrArg (fun m => ({ s with fb := m } : State)) (memWrite_memWrite_self fbInitial s.fb (fbKey 0 0) _)

theorem clearRotation_idem : clearRotation (clearRotation s) = clearRotation s := rfl

theorem zeroFb_clearRotation : zeroFb (clearRotation s) = clearRotation (zeroFb s) := rfl

/-- A second clearing changes nothing. -/
theorem clear_clear : clearRotation (zeroFb (clearRotation (zeroFb s))) = clearRotation (zeroFb s) := by
  rw [zeroFb_clearRotation, zeroFb_zeroFb, clearRotation_idem]

end

/-- Settles O48: every slot's bytes are among those written, no other slot's are, and the same write twice is one. -/
theorem clearBuffersZeroesTheFrames : Obligations.ClearBuffersZeroesTheFrames := by
  intro s hf
  refine ⟨clearRotation (zeroFb s), execClearBuffers_next.mpr ⟨hf, rfl⟩, rfl, fun slot off hslot hoff => ?_,
    fun slot off hslot => ?_, execClearBuffers_next.mpr ⟨hf, (clear_clear s).symm⟩⟩
  · exact (fbByte_zeroFb s slot off).trans (if_pos ((fbKey_lt_iff slot hoff _).mpr hslot))
  · have hout : ¬ fbKey slot off < s.cfg.fbSlots * fbBytes := by unfold fbKey fbBytes; omega
    exact (fbByte_zeroFb s slot off).trans (if_neg hout)

end Sys2Proof.Proofs

/-! SUPPORT. The safety of the rotation (44_host_rotation.md rule R187): an invariant of the states the protocol reaches: O50. -/

namespace Sys2Proof.Proofs

open Sys2Proof.Machine Sys2Proof.Laws

/-! ### Slot codes -/

theorem slotCode_injective : Function.Injective slotCode := by decide

theorem slotCode_ne_noSlotCode (k : Fin 3) : slotCode k ≠ noSlotCode := by
  revert k; decide

/-! ### What the acquire operations can do to the flags -/

/-- ACQ_WRITE clears the flag of its slot and claims another slot whose flag is set, or none. -/
theorem acquireForWrite_claims_or_none (s : State) :
    (∃ k, k ≠ s.inIndex ∧ s.ready.get k = true ∧ acquireForWrite s = claimSlot k (setReady s.inIndex false s)) ∨
      acquireForWrite s = giveResult (.slot noSlotCode) (setReady s.inIndex false s) := by
  have hready : ∀ k, (committed s).get k = true → k ≠ s.inIndex ∧ s.ready.get k = true := by
    intro k hk
    by_cases h : k = s.inIndex <;> simp_all [committed]
  cases h1 : (committed s).get (s.inIndex + 1) with
  | true =>
    obtain ⟨hne, hk⟩ := hready _ h1
    exact .inl ⟨_, hne, hk, acquireForWrite_of_first h1⟩
  | false =>
    cases h2 : (committed s).get (s.inIndex + 2) with
    | true =>
      obtain ⟨hne, hk⟩ := hready _ h2
      exact .inl ⟨_, hne, hk, acquireForWrite_of_second h1 h2⟩
    | false => exact .inr (acquireForWrite_of_none h1 h2)

/-- ACQ_DISPLAY closes the first-frame gate, shows another slot whose flag is clear, or repeats its slot. -/
theorem acquireForDisplay_shows_or_repeats (s : State) :
    (s.firstFrame = true ∧ acquireForDisplay s = giveResult (.slot 0) (closeFirstFrame s)) ∨
      (∃ k, k ≠ s.outIndex ∧ s.ready.get k = false ∧ s.firstFrame = false ∧ acquireForDisplay s = showSlot k s) ∨
      acquireForDisplay s = giveResult (.slot (slotCode s.outIndex)) s := by
  have hne : s.outIndex + 1 ≠ s.outIndex ∧ s.outIndex + 2 ≠ s.outIndex := by
    generalize s.outIndex = k; revert k; decide
  cases h : s.firstFrame with
  | true => exact .inl ⟨rfl, acquireForDisplay_of_firstFrame h⟩
  | false =>
    cases h1 : s.ready.get (s.outIndex + 1) with
    | false => exact .inr (.inl ⟨_, hne.1, h1, rfl, acquireForDisplay_of_first h h1⟩)
    | true =>
      cases h2 : s.ready.get (s.outIndex + 2) with
      | false => exact .inr (.inl ⟨_, hne.2, h2, rfl, acquireForDisplay_of_second h h1 h2⟩)
      | true => exact .inr (.inr (acquireForDisplay_of_none h h1 h2))

/-! ### The registers other operations leave alone -/

/-- The configuration and the rotation registers of `s` and `t` agree. -/
structure RotationKept (s t : State) : Prop where
  config : t.config = s.config
  bufferingMode : t.bufferingMode = s.bufferingMode
  inIndex : t.inIndex = s.inIndex
  outIndex : t.outIndex = s.outIndex
  ready : t.ready = s.ready
  firstFrame : t.firstFrame = s.firstFrame

theorem rotationKept_storePal (ws : List PalWord) (s : State) : RotationKept s (storePal ws s) :=
  ⟨rfl, rfl, rfl, rfl, rfl, rfl⟩

theorem rotationKept_withTemplates (s : State) : RotationKept s (withTemplates s) := by
  rw [withTemplates_frame]; exact ⟨rfl, rfl, rfl, rfl, rfl, rfl⟩

/-- Only the acquire operations, CLEAR_BUFFERS, SET_BUFFERING and RESET write the rotation registers. -/
theorem exec_rotationKept {i : Instr} {s t : State}
    (hi : i ≠ .acqWrite ∧ i ≠ .acqDisplay ∧ i ≠ .clearBuffers ∧ i ≠ .reset ∧ ∀ e, i ≠ .setBuffering e)
    (h : exec i s = .next t) : RotationKept s t := by
  obtain ⟨hwrite, hdisplay, hclear, hreset, hmode⟩ := hi
  cases exec_effect h with
  | reset => exact absurd rfl hreset
  | arm | emit | unwritten | lineEnd | step | reloadSource => exact ⟨rfl, rfl, rfl, rfl, rfl, rfl⟩
  | background hb =>
    cases hb with
    | palBuild => exact rotationKept_storePal _ s
    | tplBuild => exact rotationKept_withTemplates s
    | fbWrite | returns => exact ⟨rfl, rfl, rfl, rfl, rfl, rfl⟩
    | rebuildRow => rw [rebuildRest_frame]; exact ⟨rfl, rfl, rfl, rfl, rfl, rfl⟩
    | rebuild => rw [rebuildRows_frame]; exact ⟨rfl, rfl, rfl, rfl, rfl, rfl⟩
    | clearBuffers => exact absurd rfl hclear
    | setBuffering => exact absurd rfl (hmode _)
    | acqWrite => exact absurd rfl hwrite
    | acqDisplay => exact absurd rfl hdisplay

/-! ### The invariant -/

/-- What the protocol keeps, with the code `latest` the latest ACQ_WRITE returned: the flag of the slot shown is clear, the flag of
the slot being drawn into is set, and before the first ACQ_DISPLAY slot 0 is the one shown. -/
structure RotationInv (s : State) (latest : BitVec 2) : Prop where
  inUse : rotating s = true
  shown : s.ready.get s.outIndex = false
  claimed : latest = noSlotCode ∨ latest = slotCode s.inIndex ∧ s.ready.get s.inIndex = true
  gate : s.firstFrame = true → s.outIndex = 0

section

variable {s t : State} {latest code : BitVec 2}

/-- The slot being drawn into is not the slot shown: their flags differ. -/
theorem RotationInv.claimed_ne_shown (h : RotationInv s latest) (hsome : latest ≠ noSlotCode) :
    latest ≠ slotCode s.outIndex := by
  obtain hnone | ⟨rfl, hready⟩ := h.claimed
  · exact absurd hnone hsome
  · intro heq
    rw [slotCode_injective heq, h.shown] at hready
    cases hready

theorem RotationKept.rotationInv (h : RotationKept s t) (hs : RotationInv s latest) : RotationInv t latest where
  inUse := by rw [← hs.inUse, rotating, rotating, State.cfg, h.config, h.bufferingMode]
  shown := by rw [h.ready, h.outIndex]; exact hs.shown
  claimed := by rw [h.ready, h.inIndex]; exact hs.claimed
  gate := by rw [h.firstFrame, h.outIndex]; exact hs.gate

theorem rotating_congr (h : MemoryKept s t) : rotating t = rotating s := by
  rw [rotating, rotating, h.cfg, h.bufferingMode]

/-- Committing a slot leaves the flag of the slot shown clear. -/
theorem RotationInv.shown_committed (hs : RotationInv s latest) : (committed s).get s.outIndex = false := by
  rw [committed, ready_get_set, hs.shown, ite_self]

theorem rotationInv_acquireForWrite (hs : RotationInv s latest) :
    ∃ code, (acquireForWrite s).result = some (.slot code) ∧ RotationInv (acquireForWrite s) code := by
  have hrot : rotating (acquireForWrite s) = true := (rotating_congr (memoryKept_acquireForWrite s)).trans hs.inUse
  obtain ⟨k, hne, hk, heq⟩ | heq := acquireForWrite_claims_or_none s
  · rw [heq] at hrot ⊢
    have hready : (committed s).get k = true := by rw [committed, ready_get_set, if_neg hne, hk]
    exact ⟨slotCode k, rfl, hrot, hs.shown_committed, .inr ⟨rfl, hready⟩, hs.gate⟩
  · rw [heq] at hrot ⊢
    exact ⟨noSlotCode, rfl, hrot, hs.shown_committed, .inl rfl, hs.gate⟩

theorem rotationInv_acquireForDisplay (hs : RotationInv s latest) : RotationInv (acquireForDisplay s) latest := by
  have hrot : rotating (acquireForDisplay s) = true := (rotating_congr (memoryKept_acquireForDisplay s)).trans hs.inUse
  obtain ⟨-, heq⟩ | ⟨k, hne, hk, hgate, heq⟩ | heq := acquireForDisplay_shows_or_repeats s <;> rw [heq] at hrot ⊢
  · exact ⟨hrot, hs.shown, hs.claimed, nofun⟩
  · have hshown : (s.ready.set s.outIndex true).get k = false := by rw [ready_get_set, if_neg hne, hk]
    have hclaimed : latest = noSlotCode ∨ latest = slotCode s.inIndex ∧ (s.ready.set s.outIndex true).get s.inIndex = true :=
      hs.claimed.imp_right fun ⟨hcode, hready⟩ => ⟨hcode, by rw [ready_get_set, hready, ite_self]⟩
    exact ⟨hrot, hshown, hclaimed, fun h => absurd (h.symm.trans hgate) nofun⟩
  · exact ⟨hrot, hs.shown, hs.claimed, hs.gate⟩

/-- ACQ_DISPLAY returns the slot it then shows: on the first call slot 0 is the one shown. -/
theorem RotationInv.result_acquireForDisplay (hs : RotationInv s latest) :
    (acquireForDisplay s).result = some (.slot (slotCode (acquireForDisplay s).outIndex)) := by
  obtain ⟨hgate, heq⟩ | ⟨k, -, -, -, heq⟩ | heq := acquireForDisplay_shows_or_repeats s <;> rw [heq]
  · rw [giveResult_result, giveResult_outIndex, closeFirstFrame_outIndex, hs.gate hgate]; rfl
  · rfl
  · rfl

/-- A completed ACQ_WRITE meets the invariant with the code it returned, and the slot shown stays. -/
theorem RotationInv.after_acqWrite (hs : RotationInv s latest) (h : exec .acqWrite s = .next t)
    (hcode : t.result = some (.slot code)) : RotationInv t code ∧ t.outIndex = s.outIndex := by
  obtain ⟨-, rfl⟩ := execAcqWrite_next.mp h
  rw [if_pos hs.inUse] at hcode ⊢
  obtain ⟨code', hresult, hinv⟩ := rotationInv_acquireForWrite hs
  obtain rfl : code' = code := OpResult.slot.inj (Option.some.inj (hresult.symm.trans hcode))
  exact ⟨hinv, by rw [acquireForWrite_frame]⟩

theorem RotationInv.execAcqDisplay_eq (hs : RotationInv s latest) (h : exec .acqDisplay s = .next t) :
    t = acquireForDisplay s :=
  (execAcqDisplay_next.mp h).2.trans (if_pos hs.inUse)

/-- The invariant holds in every state the protocol reaches. -/
theorem rotationInv_of_rotated (h : Rotated s latest) : RotationInv s latest := by
  induction h with
  | cleared s hb hn hi ho hr hf => exact ⟨rotating_eq_true.mpr ⟨hb, hn⟩, by rw [hr, ready_get_clear], .inl rfl, fun _ => ho⟩
  | write s t latest code hs he hc ih => exact (ih.after_acqWrite he hc).1
  | display s t latest hs he ih =>
    rw [ih.execAcqDisplay_eq he]
    exact rotationInv_acquireForDisplay ih
  | other s t latest i hs hi he ih => exact (exec_rotationKept hi he).rotationInv ih

end

/-- Settles O50: by the invariant, what either acquire operation returns is told apart from the other side's slot by their flags. -/
theorem rotationSafety : Obligations.RotationSafety := by
  intro s t latest code hrotated hcode
  have hs := rotationInv_of_rotated hrotated
  refine ⟨fun hdisplay => ?_, fun hwrite hsome => ?_⟩
  · obtain rfl := hs.execAcqDisplay_eq hdisplay
    obtain rfl : slotCode (acquireForDisplay s).outIndex = code :=
      OpResult.slot.inj (Option.some.inj (hs.result_acquireForDisplay.symm.trans hcode))
    exact ⟨slotCode_ne_noSlotCode _, fun hsome => ((rotationInv_acquireForDisplay hs).claimed_ne_shown hsome).symm⟩
  · obtain ⟨hinv, hout⟩ := hs.after_acqWrite hwrite hcode
    rw [← hout]
    exact hinv.claimed_ne_shown hsome

end Sys2Proof.Proofs

/-! SUPPORT. A fault is sticky (60_exceptions.md rule R200): with a fault set no event operation but RESET is enabled, and a step only
drops its turn (O53). -/

namespace Sys2Proof.Proofs

open Sys2Proof.Machine Sys2Proof.Laws

section

variable {s t : State}

/-- With a fault set an event operation but RESET has no step; one with a slot operand needs its slot to exist first. -/
theorem exec_of_faulted {i : Instr} {w : Word} (hf : s.fault ≠ none) (hevent : encode i = some w) (hreset : i ≠ .reset)
    (hwf : i.wf s.cfg = true) : exec i s = .refused (.notEnabled .faultSet) := by
  cases i with
  | reset => exact absurd rfl hreset
  | rebuildRow | rebuild | fbWrite => exact (whenSlot_pos (of_decide_eq_true hwf)).trans (whenFaultFree_neg hf)
  | arm | stream | lineEnd | step | palRead | palBuild | tplBuild | acqWrite | acqDisplay | clearBuffers | setBuffering
  | reloadSource => exact whenFaultFree_neg hf
  | classify | select | nextY | lane | addr | plainLine | vsyncLine => cases hevent

/-- The all-zero word is RESET's and no other operation's (30_encoding.md rule R82). -/
theorem ne_reset_of_decode {i : Instr} {w : Word} (h : decode w = .ok i) (hw : w ≠ 0) : i ≠ .reset := by
  rintro rfl
  exact hw (Option.some.inj (encodeOfDecodeIsIdentity w _ h)).symm

/-- With a fault set a turn that is not RESET's has no next state of its own. -/
theorem attemptTurn_of_faulted {turn : Turn} (hf : s.fault ≠ none) (hturn : turn ≠ .event 0) : attemptTurn turn s ≠ .next t := by
  intro h
  cases turn with
  | event w =>
    obtain ⟨i, hdecode, hwf, hexec⟩ := performEvent_eq_next.mp h
    have hreset : i ≠ .reset := ne_reset_of_decode hdecode fun hw => hturn (congrArg Turn.event hw)
    rw [exec_of_faulted hf (encodeOfDecodeIsIdentity w i hdecode) hreset hwf] at hexec
    cases hexec
  | micro slot row =>
    obtain ⟨-, hnone, -⟩ := rebuildMicro_next.mp h
    exact hf hnone

theorem popTurn_of_nil (h : s.schedule = []) : popTurn s = s := by
  rw [popTurn, h, List.tail_nil, ← h]

/-- With a fault set a step passes over its turn. -/
theorem step_of_faulted (hf : s.fault ≠ none) (hturn : s.schedule.head? ≠ some (.event 0)) (h : step s = .next t) :
    t = popTurn s := by
  obtain ⟨hnil, rfl⟩ | ⟨turn, rest, hs, hnext | ⟨-, rfl⟩⟩ := step_eq_next.mp h
  · exact (popTurn_of_nil hnil).symm
  · rw [hs, List.head?_cons] at hturn
    exact absurd hnext (attemptTurn_of_faulted (s := popTurn s) hf fun he => hturn (congrArg some he))
  · rfl

end

/-- Settles O53. -/
theorem faultStopsAllButReset : Obligations.FaultStopsAllButReset := fun s hf =>
  ⟨fun _ _ hevent hreset hwf => exec_of_faulted hf hevent hreset hwf, fun _ hturn h => step_of_faulted hf hturn h,
    resetBlock s, rfl, rfl⟩

end Sys2Proof.Proofs

/-! SUPPORT. What the operations of each agent may write (60_exceptions.md rule R215, 42_dma_mux.md rule R142, 20_memory.md rule
R60): one frame per agent, by the agent's own operations (O54). -/

namespace Sys2Proof.Proofs

open Sys2Proof.Machine Sys2Proof.Laws

section

variable {i : Instr} {s t : State}

/-- STEP or RELOAD_SOURCE. -/
theorem exec_isr_frame (h : exec i s = .next t) (hagent : i.agent = .isr) :
    t = { s with y := t.y, srcPtr := t.srcPtr, irqPending := false } ∨ t = { s with srcPtr := t.srcPtr } := by
  cases i with
  | step => obtain ⟨-, -, -, -, rfl⟩ := execStep_next.mp h; exact .inl rfl
  | reloadSource b => obtain ⟨-, rfl⟩ := execReloadSource_next.mp h; exact .inr rfl
  | _ => cases hagent

/-- STREAM: a word put out and counted, or the fault of an unwritten one. -/
theorem exec_data_frame (h : exec i s = .next t) (hagent : i.agent = .data) :
    t = { s with dmaCnt := t.dmaCnt, outStream := t.outStream, fault := t.fault } := by
  cases i with
  | stream => obtain ⟨-, -, -, -, ⟨w, -, rfl⟩ | ⟨-, rfl⟩⟩ := execStream_next.mp h <;> rfl
  | _ => cases hagent

/-- LINE_END. -/
theorem exec_ctrl_frame (h : exec i s = .next t) (hagent : i.agent = .ctrl) :
    t = { s with dmaBase := t.dmaBase, dmaCnt := t.dmaCnt, irqPending := true } := by
  cases i with
  | lineEnd => obtain ⟨-, -, -, rfl⟩ := execLineEnd_next.mp h; rfl
  | _ => cases hagent

/-- FB_WRITE or ACQ_WRITE. -/
theorem exec_producer_frame (h : exec i s = .next t) (hagent : i.agent = .producer) :
    t = { s with fb := t.fb, inIndex := t.inIndex, ready := t.ready, result := t.result } := by
  cases i with
  | fbWrite slot off val => obtain ⟨-, -, rfl⟩ := execFbWrite_next.mp h; rfl
  | acqWrite =>
    obtain ⟨-, rfl⟩ := execAcqWrite_next.mp h
    split
    · rw [acquireForWrite_frame]
    · rfl
  | _ => cases hagent

/-- REBUILD_ROW, REBUILD or ACQ_DISPLAY. -/
theorem exec_consumer_frame (h : exec i s = .next t) (hagent : i.agent = .consumer) :
    t = { s with
      line := t.line, outIndex := t.outIndex, ready := t.ready, firstFrame := t.firstFrame, rb := t.rb, fault := t.fault,
      result := t.result } := by
  cases i with
  | rebuildRow slot row => obtain ⟨-, -, m, -, rfl⟩ := execRebuildRow_next.mp h; rw [rebuildRest_frame]
  | rebuild slot => obtain ⟨-, -, -, rfl⟩ := execRebuild_next.mp h; rw [rebuildRows_frame]
  | acqDisplay =>
    obtain ⟨-, rfl⟩ := execAcqDisplay_next.mp h
    split
    · rw [acquireForDisplay_frame]
    · rfl
  | _ => cases hagent

/-- A rebuild writes its own prepared lines, ACQ_DISPLAY no line. -/
theorem exec_consumer_lineByte_outside (h : exec i s = .next t) (hagent : i.agent = .consumer) {a : Nat}
    (hout : ∀ row, ¬ InBuf s.cfg (.prep row) a) : lineByte t a = lineByte s a := by
  cases i with
  | rebuildRow slot row =>
    obtain ⟨-, -, m, -, rfl⟩ := execRebuildRow_next.mp h
    exact lineByte_rebuildRest_outside (hout row)
  | rebuild slot =>
    obtain ⟨-, -, -, rfl⟩ := execRebuild_next.mp h
    exact lineByte_rebuildRows_outside fun row _ => hout row
  | acqDisplay =>
    obtain ⟨-, rfl⟩ := execAcqDisplay_next.mp h
    split
    · exact (memoryKept_acquireForDisplay s).lineByte_eq a
    · rfl
  | _ => cases hagent

/-- A read port: PAL_READ or a pure function. -/
theorem exec_any_frame (h : exec i s = .next t) (hagent : i.agent = .any) : t = { s with result := t.result } := by
  cases i with
  | palRead idx => obtain ⟨-, rfl⟩ := execPalRead_next.mp h; rfl
  | classify y => obtain ⟨-, rfl⟩ := execClassify_next.mp h; rfl
  | select y => obtain ⟨-, rfl⟩ := execSelect_next.mp h; rfl
  | nextY y => obtain ⟨-, rfl⟩ := execNextY_next.mp h; rfl
  | lane n => obtain rfl := execLane_next.mp h; rfl
  | addr b => obtain rfl := execAddr_next.mp h; rfl
  | plainLine k => obtain ⟨-, rfl⟩ := execPlainLine_next.mp h; rfl
  | vsyncLine k => obtain ⟨-, rfl⟩ := execVsyncLine_next.mp h; rfl
  | _ => cases hagent

/-- ARM, the two table builds, CLEAR_BUFFERS or SET_BUFFERING. -/
theorem exec_host_frame (h : exec i s = .next t) (hagent : i.agent = .host) (hreset : i ≠ .reset) :
    t = { s with
      pal := t.pal, line := t.line, fb := t.fb, dmaBase := t.dmaBase, dmaCnt := t.dmaCnt, dmaArmed := t.dmaArmed,
      inIndex := t.inIndex, outIndex := t.outIndex, ready := t.ready, firstFrame := t.firstFrame,
      bufferingMode := t.bufferingMode } := by
  cases i with
  | reset => exact absurd rfl hreset
  | arm b => obtain ⟨-, -, rfl⟩ := execArm_next.mp h; rfl
  | palBuild => obtain ⟨-, rfl⟩ := execPalBuild_next.mp h; rfl
  | tplBuild => obtain ⟨-, rfl⟩ := execTplBuild_next.mp h; rfl
  | clearBuffers => obtain ⟨-, rfl⟩ := execClearBuffers_next.mp h; rfl
  | setBuffering en => obtain ⟨-, -, rfl⟩ := execSetBuffering_next.mp h; rfl
  | _ => cases hagent

end

/-- Settles O54: each agent's frame, and the consumer's addresses. -/
theorem contextsWriteOnlyTheirOwn : Obligations.ContextsWriteOnlyTheirOwn := fun _ _ _ h =>
  ⟨exec_isr_frame h, exec_data_frame h, exec_ctrl_frame h, exec_producer_frame h,
    fun hagent => ⟨exec_consumer_frame h hagent, fun _ => exec_consumer_lineByte_outside h hagent⟩,
    exec_any_frame h, exec_host_frame h⟩

end Sys2Proof.Proofs

/-! SUPPORT. RESET (O1), and what the boot obligations give (70_reset_and_hazards.md rule R237): no operation but RESET makes a
written byte of LINE unwritten or lets a pointer name an unwritten buffer, so STREAM never meets an unwritten byte (O58). -/

namespace Sys2Proof.Proofs

open Sys2Proof.Machine Sys2Proof.Laws

/-- Settles O1. -/
theorem resetOperationGivesResetValues : Obligations.ResetOperationGivesResetValues := fun s =>
  ⟨resetBlock s, execReset_next.mpr rfl, isReset_resetBlock s, resetBlock_config s⟩

section

variable {i : Instr} {s t u : State}

/-! ### Written bytes stay written -/

/-- Every byte of LINE written in `s` is written in `t`, under the same configuration. -/
structure WrittenKept (s t : State) : Prop where
  config : t.config = s.config
  bytes : ∀ a, (lineByte s a).isSome = true → (lineByte t a).isSome = true

theorem WrittenKept.lineReady (h : WrittenKept s t) {b : BufId} (hb : LineReady s b) : LineReady t b := by
  unfold LineReady bufSample
  rw [cfg_eq_of_config_eq h.config]
  exact fun k hk => h.bytes _ (hb k hk)

theorem MemoryKept.writtenKept (h : MemoryKept s t) : WrittenKept s t where
  config := h.config
  bytes a ha := by rw [h.lineByte_eq a]; exact ha

theorem lineByte_isSome_buildTpl {a : Nat} (h : (lineByte s a).isSome = true) (k : BitVec 2) :
    (lineByte (buildTpl k s) a).isSome = true := lineByte_isSome_storeLine h _ _

theorem lineByte_isSome_rebuildRows {a : Nat} (h : (lineByte s a).isSome = true) (slot : BitVec 2) (rows : List Byte) :
    (lineByte (rebuildRows slot rows s) a).isSome = true := by
  induction rows generalizing s with
  | nil => exact h
  | cons r rest ih =>
    have hr := lineByte_isSome_rebuildRest h slot r 0
    simp only [rebuildRows]
    split
    · exact ih hr
    · exact hr

theorem BackgroundEffect.writtenKept (h : BackgroundEffect s i t) : WrittenKept s t := by
  refine ⟨h.scanoutKept.config, fun a ha => ?_⟩
  cases h with
  | tplBuild =>
    exact lineByte_isSome_buildTpl (lineByte_isSome_buildTpl (lineByte_isSome_buildTpl (lineByte_isSome_buildTpl ha 0) 1) 2) 3
  | rebuildRow => exact lineByte_isSome_rebuildRest ha _ _ _
  | rebuild => exact lineByte_isSome_rebuildRows ha _ _
  | acqWrite => exact (memoryKept_acquireForWrite s).writtenKept.bytes a ha
  | acqDisplay => exact (memoryKept_acquireForDisplay s).writtenKept.bytes a ha
  | palBuild | fbWrite | clearBuffers | setBuffering | returns => exact ha

/-- No operation but RESET makes a written byte of LINE unwritten. -/
theorem ExecEffect.writtenKept (h : ExecEffect s i t) (hreset : i ≠ .reset) : WrittenKept s t := by
  rcases h.memoryKept_or_background hreset with hkept | hb
  · exact hkept.writtenKept
  · exact hb.writtenKept

/-! ### Pointers keep naming written buffers -/

/-- A pointer names a line buffer all of whose bytes are written. -/
def NamesWritten (s : State) (p : Word) : Prop := ∃ b, p = addr s.cfg b ∧ LineReady s b

theorem streamReady_iff :
    StreamReady s ↔ Inv s ∧ BootReady s ∧ NamesWritten s s.srcPtr ∧ (s.dmaArmed = true → NamesWritten s s.dmaBase) := Iff.rfl

theorem WrittenKept.namesWritten (h : WrittenKept s t) {p : Word} : NamesWritten s p → NamesWritten t p :=
  fun ⟨b, hp, hb⟩ => ⟨b, hp.trans (cfg_eq_of_config_eq h.config ▸ rfl), h.lineReady hb⟩

/-- ARM and RELOAD_SOURCE load the address of their operand, STEP of the next scanline's buffer, LINE_END the published pointer. -/
theorem ExecEffect.namesWritten (h : ExecEffect s i t) (hs : StreamReady s) (hreset : i ≠ .reset)
    (hload : ∀ b, i = .arm b ∨ i = .reloadSource b → LineReady s b) :
    NamesWritten s t.srcPtr ∧ (t.dmaArmed = true → NamesWritten s t.dmaBase) := by
  obtain ⟨-, hboot, hsrc, hbase⟩ := streamReady_iff.mp hs
  cases h with
  | reset => exact absurd rfl hreset
  | arm => exact ⟨hsrc, fun _ => ⟨_, rfl, hload _ (.inl rfl)⟩⟩
  | emit | unwritten => exact ⟨hsrc, hbase⟩
  | lineEnd => exact ⟨hsrc, fun _ => hsrc⟩
  | step hy => exact ⟨⟨_, rfl, lineReady_select hboot (nextY_lt s.config.ok hy)⟩, hbase⟩
  | reloadSource => exact ⟨⟨_, rfl, hload _ (.inr rfl)⟩, hbase⟩
  | background hb =>
    have hkept := hb.scanoutKept
    rw [hkept.srcPtr, hkept.dmaArmed, hkept.dmaBase]
    exact ⟨hsrc, hbase⟩

/-! ### The boot obligations and the pointers stay -/

theorem exec_bootReady (hs : BootReady s) (hreset : i ≠ .reset) (h : exec i s = .next t) : BootReady t := by
  obtain ⟨hpalette, htemplates, hprepared⟩ := hs
  have hkept := (exec_effect h).writtenKept hreset
  refine ⟨exec_keeps_paletteBuilt h hpalette, exec_keeps_templatesBuilt h htemplates, fun r hr => ?_⟩
  rw [cfg_eq_of_config_eq hkept.config] at hr
  exact hkept.lineReady (hprepared r hr)

theorem exec_streamReady (hs : StreamReady s) (hreset : i ≠ .reset)
    (hload : ∀ b, i = .arm b ∨ i = .reloadSource b → LineReady s b) (h : exec i s = .next t) : StreamReady t := by
  have hkept := (exec_effect h).writtenKept hreset
  obtain ⟨hsrc, hbase⟩ := (exec_effect h).namesWritten hs hreset hload
  obtain ⟨hinv, hboot, -⟩ := streamReady_iff.mp hs
  exact streamReady_iff.mpr ⟨exec_inv hinv h, exec_bootReady hboot hreset h, hkept.namesWritten hsrc,
    fun harmed => hkept.namesWritten (hbase harmed)⟩

/-! ### The faults an operation can raise -/

/-- Where the chain streams a written buffer, STREAM puts a word out. -/
theorem exec_stream_emits (hs : StreamReady s) (h : exec .stream s = .next t) : ∃ w, t = emitWord w s := by
  obtain ⟨-, harmed, hcnt, -, ⟨w, -, rfl⟩ | ⟨hnone, -⟩⟩ := execStream_next.mp h
  · exact ⟨w, rfl⟩
  · obtain ⟨-, -, -, hbase⟩ := streamReady_iff.mp hs
    obtain ⟨b, hb, hready⟩ := hbase harmed
    have hword : (lineWord s (streamAddr s)).isSome = true := by
      rw [streamAddr, hb]
      exact bufWord_isSome hready hcnt
    rw [hnone] at hword
    cases hword

/-- The fault mark of `t` is that of `s` or an F_UNINIT_FB (60_exceptions.md rule R200). -/
def FaultKeptOrUninitFb (s t : State) : Prop := t.fault = s.fault ∨ ∃ slot row col, t.fault = some (.uninitFb slot row col)

theorem FaultKeptOrUninitFb.trans (h : FaultKeptOrUninitFb s t) (h' : FaultKeptOrUninitFb t u) : FaultKeptOrUninitFb s u := by
  rcases h' with heq | hfb
  · unfold FaultKeptOrUninitFb
    rw [heq]
    exact h
  · exact .inr hfb

theorem faultKeptOrUninitFb_rebuildRest (slot : BitVec 2) (row : Byte) (m : Nat) (s : State) :
    FaultKeptOrUninitFb s (rebuildRest slot row m s) := by
  unfold FaultKeptOrUninitFb rebuildRest
  rw [restColumns_frame]
  dsimp only
  split
  · exact .inr ⟨_, _, _, rfl⟩
  · exact .inl rfl

theorem faultKeptOrUninitFb_rebuildRows (slot : BitVec 2) (rows : List Byte) (s : State) :
    FaultKeptOrUninitFb s (rebuildRows slot rows s) := by
  induction rows generalizing s with
  | nil => exact .inl rfl
  | cons r rest ih =>
    have hr := faultKeptOrUninitFb_rebuildRest slot r 0 s
    simp only [rebuildRows]
    split
    · exact hr.trans (ih _)
    · exact hr

/-- Of the background operations only a rebuild raises a fault, F_UNINIT_FB. -/
theorem BackgroundEffect.fault_kept_or_rebuild (h : BackgroundEffect s i t) :
    t.fault = s.fault ∨
      ((∃ slot row, i = .rebuildRow slot row) ∨ ∃ slot, i = .rebuild slot) ∧ FaultKeptOrUninitFb s t := by
  cases h with
  | rebuildRow => exact .inr ⟨.inl ⟨_, _, rfl⟩, faultKeptOrUninitFb_rebuildRest _ _ _ s⟩
  | rebuild => exact .inr ⟨.inr ⟨_, rfl⟩, faultKeptOrUninitFb_rebuildRows _ _ s⟩
  | acqWrite => exact .inl (by rw [acquireForWrite_frame])
  | acqDisplay => exact .inl (by rw [acquireForDisplay_frame])
  | palBuild | tplBuild | fbWrite | clearBuffers | setBuffering | returns => exact .inl rfl

/-- Where STREAM meets only written bytes, only a rebuild raises a fault, F_UNINIT_FB. -/
theorem exec_fault_kept_or_rebuild (hs : StreamReady s) (hreset : i ≠ .reset) (h : exec i s = .next t) :
    t.fault = s.fault ∨
      ((∃ slot row, i = .rebuildRow slot row) ∨ ∃ slot, i = .rebuild slot) ∧ FaultKeptOrUninitFb s t := by
  cases exec_effect h with
  | reset => exact absurd rfl hreset
  | unwritten =>
    obtain ⟨w, hw⟩ := exec_stream_emits hs h
    exact .inl (hw ▸ emitWord_fault s w)
  | background hb => exact hb.fault_kept_or_rebuild
  | arm | emit | lineEnd | step | reloadSource => exact .inl rfl

theorem FaultKeptOrUninitFb.fault_eq_of_uninitLine (h : FaultKeptOrUninitFb s t) {a : Nat}
    (ha : t.fault = some (.uninitLine a)) : s.fault = t.fault := by
  obtain heq | ⟨slot, row, col, hfb⟩ := h
  · exact heq.symm
  · rw [hfb] at ha
    cases ha

end

/-- Settles O58: an operation keeps `StreamReady`, under which only a rebuild raises a fault, F_UNINIT_FB. -/
theorem bootObligationsPreventUnwrittenStream : Obligations.BootObligationsPreventUnwrittenStream := by
  intro i s t hs hreset hload h
  have hfault := exec_fault_kept_or_rebuild hs hreset h
  refine ⟨exec_streamReady hs hreset hload h, fun a ha => ?_, fun hsafe hrebuild hrow => ?_⟩
  · have hkept : FaultKeptOrUninitFb s t := hfault.elim .inl And.right
    exact hkept.fault_eq_of_uninitLine ha
  · obtain heq | ⟨⟨slot, row, hi⟩ | ⟨slot, hi⟩, -⟩ := hfault
    · exact heq.trans hsafe
    · exact absurd hi (hrow slot row)
    · exact absurd hi (hrebuild slot)

end Sys2Proof.Proofs

/-! SUPPORT. What the functions of a scanline or a sample answer outside their domains (93_implementation_defined.md U19): O19. -/

namespace Sys2Proof.Proofs

open Sys2Proof.Machine Sys2Proof.Laws

/-- Settles O19: each of the five functions stands behind `whenInDomain`, with the scanlines or the samples as its domain. -/
theorem functionsStopOutsideTheirDomain : Obligations.FunctionsStopOutsideTheirDomain := by
  intro s
  refine ⟨fun y hy => ?_, fun k hk => ?_⟩
  · have hout : ¬ y < s.cfg.wholeFrame := Nat.not_lt.mpr hy
    exact ⟨whenInDomain_neg hout, whenInDomain_neg hout, whenInDomain_neg hout⟩
  · have hout : ¬ k < s.cfg.lineSamples := Nat.not_lt.mpr hk
    exact ⟨whenInDomain_neg hout, whenInDomain_neg hout⟩

end Sys2Proof.Proofs
